-- ==== Sys2Proof/Word.lean ====
section
/-! DEFINITION. The word types of the ZB12: a byte, the millisecond uptime count and the twelve string indices. -/

namespace Sys2Proof

/-- One byte on the array bus, on the service link or in the store. -/
abbrev Byte := BitVec 8

/-- An uptime in milliseconds: a 32-bit count that returns to zero (00_scope.md 4.3). -/
abbrev Ms := BitVec 32

/-- A string index. The spec counts strings 1 to 12; index `i` here is the spec's string `i + 1` (00_scope.md 4.2). -/
abbrev StringIdx := Fin 12

/-- The twelve string indices in ascending order. -/
def StringIdx.all : List StringIdx := [0, 1, 2, 3, 4, 5, 6, 7, 8, 9, 10, 11]

/-- One value for each of the twelve strings. -/
abbrev PerString (α : Type) := Vector α 12

end Sys2Proof
end

