-- ==== Sys2Proof/Syntax.lean ====
section
/-! DEFINITION. The commands of the ZB12, one constructor for each row of spec/opcode_table.json, with the operands that the
spec's rule for the row gives it. -/

namespace Sys2Proof

/-- What the part reads at one protection tick: the raw codes of the twenty-seven sense inputs (R1, section 1.1), which are
current and voltage codes of 12 bits (0 to 4095), the arc-noise detector's box score code and twelve share codes of 10 bits
(0 to 1023, R5), and whether the shutdown input stands at the shutdown level (R147). -/
structure RawInputs where
  currents : PerString (BitVec 12)
  total : BitVec 12
  voltages : PerString (BitVec 12)
  bus : BitVec 12
  score : BitVec 10
  shares : PerString (BitVec 10)
  shutdown : Bool
deriving DecidableEq, Repr

/-- The parts of one protection tick whose order the spec leaves open (R7, R101, R154): the Adjudicator's handling of one
string's sample, the Arc contest unit's handling of the set, and a sequencer's zero-band test. -/
inductive TickPart where
  | fastCheck (i : StringIdx)
  | arcContest
  | zeroBand (i : StringIdx)
deriving DecidableEq, Repr

/-- How the consumers of a tick sample set come to take it: the parts that are taken first, in this order, the parts that are still on
their way when the step ends, and whether the open demands are (assumption log 6). -/
structure TickOrder where
  first : List TickPart
  late : List TickPart
  demandsWait : Bool
deriving DecidableEq, Repr

/-- How a window close comes to be taken: whether the Hold manager takes it before the Adjudicator takes the verdict set (R144), and
whether these two arrivals, and the open demands, are still on their way when the step ends (assumption logs 6 and 7). -/
structure CloseOrder where
  holdsFirst : Bool
  verdictsWait : Bool
  demandsWait : Bool
deriving DecidableEq, Repr

/-- A contest window end: the time since the command before it, and whether its open demand is still on its way when the step ends
(assumption log 6). -/
structure ContestEnd where
  dt : Nat
  demandsWait : Bool
deriving DecidableEq, Repr

/-- The commands. Every command but a supply reset carries `dt`, the microseconds of uptime that pass between the command
before it and this one (assumption log 1). -/
inductive Instr where
  /-- POWER_ON, with the level of the shutdown input at the settings load (R149). -/
  | powerOn (shutdown : Bool)
  /-- SUPPLY_DIP, likewise. -/
  | supplyDip (shutdown : Bool)
  /-- SERVICE_RESTART: the reset that a RESTART command arranged, likewise. -/
  | serviceRestart (dt : Nat) (shutdown : Bool)
  /-- PROTECTION_TICK: what is read, and how the set's consumers come to take it. -/
  | protectionTick (dt : Nat) (raw : RawInputs) (order : TickOrder)
  /-- WINDOW_SAMPLE -/
  | windowSample (dt : Nat)
  /-- WINDOW_CLOSE, with how it comes to be taken. -/
  | windowClose (dt : Nat) (order : CloseOrder)
  /-- SHUTDOWN_ASSERTION -/
  | shutdownAssertion (dt : Nat)
  /-- SHUTDOWN_DEASSERTION -/
  | shutdownDeassertion (dt : Nat)
  /-- OPENING_STEP of one string -/
  | openingStep (dt : Nat) (i : StringIdx)
  /-- CONFIRM_DEADLINE of one string -/
  | confirmDeadline (dt : Nat) (i : StringIdx)
  /-- PARTING_DEADLINE of one string -/
  | partingDeadline (dt : Nat) (i : StringIdx)
  /-- MAKING_DEADLINE of one string -/
  | makingDeadline (dt : Nat) (i : StringIdx)
  /-- CLOSING_STEP of one string -/
  | closingStep (dt : Nat) (i : StringIdx)
  /-- RETRY_END of one string -/
  | retryEnd (dt : Nat) (i : StringIdx)
  /-- STARTUP_END of one string -/
  | startupEnd (dt : Nat) (i : StringIdx)
  /-- VOLTAGE_RECHECK of one string -/
  | voltageRecheck (dt : Nat) (i : StringIdx)
  /-- CONTEST_WINDOW_END -/
  | contestWindowEnd (at' : ContestEnd)
  /-- RESOLUTION_DEADLINE -/
  | resolutionDeadline (dt : Nat)
  /-- QUIET_PERIOD_END -/
  | quietPeriodEnd (dt : Nat)
  /-- SETTLE_END -/
  | settleEnd (dt : Nat)
  /-- RIVAL_EXPIRY of the entry of one station -/
  | rivalExpiry (dt : Nat) (station : Nat)
  /-- TELEGRAM_COMPLETE: the last check byte of a received telegram arrives without stop error. -/
  | telegramComplete (dt : Nat) (byte : Byte)
  /-- IDLE_GAP_EXPIRY -/
  | idleGapExpiry (dt : Nat)
  /-- DEFERRAL_EXPIRY -/
  | deferralExpiry (dt : Nat)
  /-- TRANSMISSION_COMPLETE -/
  | transmissionComplete (dt : Nat)
  /-- COLLISION -/
  | collision (dt : Nat)
  /-- ISOLATE: the oldest delivered request is carried out, if it is an ISOLATE. -/
  | isolate (dt : Nat)
  /-- RELEASE, likewise. -/
  | release (dt : Nat)
  /-- ACKNOWLEDGE, likewise. -/
  | acknowledge (dt : Nat)
  /-- READ_STATUS, likewise. -/
  | readStatus (dt : Nat)
  /-- READ_STRINGS, likewise. -/
  | readStrings (dt : Nat)
  /-- READ_LOG, likewise. -/
  | readLog (dt : Nat)
  /-- READ_TALLY, likewise. -/
  | readTally (dt : Nat)
  /-- LOCKOUT_PAGE_WRITE_COMPLETE -/
  | lockoutPageWriteComplete (dt : Nat)
  /-- ENTER: the byte 0xA7 and the bytes after it that arrive (three for a whole ENTER). -/
  | enter (dt : Nat) (args : List Byte)
  /-- READ_FACTORY: its command byte arrives. -/
  | readFactory (dt : Nat)
  /-- READ_PAGE: its command byte and the argument bytes that arrive (one for a whole command). -/
  | readPage (dt : Nat) (args : List Byte)
  /-- VERIFY_PAGE: its command byte arrives. -/
  | verifyPage (dt : Nat)
  /-- LOAD_BUFFER: its command byte and the argument bytes that arrive (sixty-five for a whole command). -/
  | loadBuffer (dt : Nat) (args : List Byte)
  /-- PROGRAM_PAGE: its command byte arrives. -/
  | programPage (dt : Nat)
  /-- PROGRAM_COMPLETE -/
  | programComplete (dt : Nat)
  /-- ERASE_STORE: its command byte arrives. -/
  | eraseStore (dt : Nat)
  /-- ERASE_COMPLETE -/
  | eraseComplete (dt : Nat)
  /-- SEAL: its command byte arrives. -/
  | sealStore (dt : Nat)
  /-- SEAL_COMPLETE -/
  | sealComplete (dt : Nat)
  /-- RESTART: its command byte arrives. -/
  | restart (dt : Nat)
  /-- UNKNOWN_COMMAND_BYTE: a byte that is no command byte arrives on the service link. -/
  | unknownCommandByte (dt : Nat) (byte : Byte)
  /-- COMMAND_TIMEOUT -/
  | commandTimeout (dt : Nat)
  /-- SESSION_TIMEOUT -/
  | sessionTimeout (dt : Nat)
  /-- BYTE_ARRIVAL: a byte on the array bus, and whether its stop bit was read at the wrong level. -/
  | byteArrival (dt : Nat) (byte : Byte) (stopError : Bool)
  /-- SERVICE_STOP_ERROR -/
  | serviceStopError (dt : Nat)
deriving DecidableEq, Repr

end Sys2Proof
end

