-- ==== Sys2Proof/WellFormed.lean ====
section
/-! DEFINITION. Which commands are well formed: the limits of their operands that the types do not already give. A meaning is
given to the others too (the bytes are taken as they come), so a statement about every command needs no such premise. -/

namespace Sys2Proof

/-- The nine command bytes of the service link (12_telegram_and_record_layouts.md section 12.4; 0xA7 begins an ENTER, R177). -/
def serviceCommandBytes : List Byte := [0xA7, 0x41, 0x42, 0x43, 0x44, 0x45, 0x46, 0x47, 0x48]

/-- The stations of the array bus are numbered 1 to 62 (section 4.2 of 00_scope.md). -/
def isStation (n : Nat) : Bool := decide (1 ≤ n) && decide (n ≤ 62)

/-- A command's operands lie within the spec's limits: no part of a tick is named twice, a rival is a station, no more
argument bytes come than the command has, and an unknown command byte is none of the command bytes. -/
def Instr.wellFormed : Instr → Bool
  | .protectionTick _ _ order => decide order.first.Nodup && decide order.late.Nodup
  | .rivalExpiry _ station => isStation station
  | .enter _ args => decide (args.length ≤ 3)
  | .readPage _ args => decide (args.length ≤ 1)
  | .loadBuffer _ args => decide (args.length ≤ 65)
  | .unknownCommandByte _ byte => !serviceCommandBytes.contains byte
  | .powerOn _ | .supplyDip _ | .serviceRestart _ _ | .windowSample _ | .windowClose _ _ => true
  | .shutdownAssertion _ | .shutdownDeassertion _ => true
  | .openingStep _ _ | .confirmDeadline _ _ | .partingDeadline _ _ | .makingDeadline _ _ | .closingStep _ _ => true
  | .retryEnd _ _ | .startupEnd _ _ | .voltageRecheck _ _ => true
  | .contestWindowEnd _ | .resolutionDeadline _ | .quietPeriodEnd _ | .settleEnd _ => true
  | .telegramComplete _ _ | .idleGapExpiry _ | .deferralExpiry _ | .transmissionComplete _ | .collision _ => true
  | .isolate _ | .release _ | .acknowledge _ | .readStatus _ | .readStrings _ | .readLog _ | .readTally _ => true
  | .lockoutPageWriteComplete _ | .programComplete _ | .eraseComplete _ | .sealComplete _ => true
  | .readFactory _ | .verifyPage _ | .programPage _ | .eraseStore _ | .sealStore _ | .restart _ => true
  | .commandTimeout _ | .sessionTimeout _ | .byteArrival _ _ _ | .serviceStopError _ => true

/-- The microseconds of uptime that pass before a command: none before a supply reset, which starts the count again. -/
def Instr.span : Instr → Nat
  | .powerOn _ | .supplyDip _ => 0
  | .serviceRestart dt _ | .protectionTick dt _ _ | .windowSample dt | .windowClose dt _ | .shutdownAssertion dt
  | .shutdownDeassertion dt | .openingStep dt _ | .confirmDeadline dt _ | .partingDeadline dt _
  | .makingDeadline dt _ | .closingStep dt _ | .retryEnd dt _ | .startupEnd dt _ | .voltageRecheck dt _
  | .contestWindowEnd ⟨dt, _⟩ | .resolutionDeadline dt | .quietPeriodEnd dt | .settleEnd dt | .rivalExpiry dt _
  | .telegramComplete dt _ | .idleGapExpiry dt | .deferralExpiry dt | .transmissionComplete dt | .collision dt
  | .isolate dt | .release dt | .acknowledge dt | .readStatus dt | .readStrings dt | .readLog dt | .readTally dt
  | .lockoutPageWriteComplete dt | .enter dt _ | .readFactory dt | .readPage dt _ | .verifyPage dt | .loadBuffer dt _
  | .programPage dt | .programComplete dt | .eraseStore dt | .eraseComplete dt | .sealStore dt | .sealComplete dt
  | .restart dt | .unknownCommandByte dt _ | .commandTimeout dt | .sessionTimeout dt | .byteArrival dt _ _
  | .serviceStopError dt => dt

end Sys2Proof
end

