-- ==== Sys2Proof/Config.lean ====
section
/-! DEFINITION. The free values: what the spec leaves open and the model does not fix. Neither constant has a body, so no proof
can see what it is. -/

namespace Sys2Proof

/-- The random number behind the `n`-th deferral draw (R39: "uniformly at random, with a new draw each time a deferral
begins"). The range of the draw is applied to it by `Machine.drawSlots`. Assumption log 9. -/
opaque Config.freeDraw : Nat → Nat

/-- The byte left at an address of the store by the `n`-th write that a reset cut off (R176: "left erased or partly
programmed"). Assumption log 10. -/
opaque Config.freeCutByte : Nat → Nat → Byte

end Sys2Proof
end

