-- ==== Sys2Proof/Machine/State.lean ====
section
/-! DEFINITION. The state of the ZB12 as plain data, block by block (00_scope.md section 2.1), the reasons a step can stop, and
the state right after reset. -/

namespace Sys2Proof.Machine

/-- Reasons to stop with a fault. There are none: the spec gives every command an effect in every state, and its own faults are
records in the fault log (assumption log 26). Nobody raises one; safe. -/
inductive Fault
deriving DecidableEq, Repr

/-- Reasons to refuse a command. -/
inductive Refusal where
  /-- The command has no meaning yet. Raised by an arm of `exec` alone; safe. -/
  | notModelled (mnemonic : String)
deriving DecidableEq, Repr

/-! ### Settings (chapter 11, 12.5) -/

/-- The action setting of a string (R59). -/
inductive Action where
  | isolate
  | reportOnly
deriving DecidableEq, Repr

/-- The settings part of a string's record (R59). Group 15 is unassigned. -/
structure StringSettings where
  present : Bool
  group : Nat
  weight : Nat
  action : Action
deriving DecidableEq, Repr

/-- The commissioning record as latched at start (R175, R184). -/
structure Settings where
  station : Nat
  feeder : Nat
  sampleInterval : Nat
  guardLow : Nat
  guardHigh : Nat
  persistence : Nat
  minContributors : Nat
  darkFloor : Nat
  reverseLimit : Nat
  overcurrentLimit : Nat
  arcThreshold : Nat
  contestWindow : Nat
  rampSteps : Nat
  voltageWindow : Nat
  retryHold : Nat
  retryBudget : Nat
  goodRun : Nat
  operators : List Nat
  strings : PerString StringSettings
deriving DecidableEq, Repr

/-- The three reset kinds (R174). -/
inductive ResetKind where
  | powerOn
  | supplyDip
  | serviceRestart
deriving DecidableEq, Repr

/-- The station modes (R175, R31). -/
inductive Mode where
  | uncommissioned
  | run
  | silent
deriving DecidableEq, Repr

/-! ### Sense front end and window accumulator (chapter 1) -/

/-- One calibration pair in use, and whether the last load replaced the page's pair by the neutral one (R6, R178). -/
structure Trim where
  offset : Int
  gain : Nat
  replaced : Bool
deriving DecidableEq, Repr

/-- The Sense front end: trims in use, the latest values (R7), and the microsecond of the next protection tick (R1). -/
structure Sfe where
  trims : PerString Trim
  totalTrim : Trim
  currents : PerString Int
  voltages : PerString Nat
  shares : PerString Nat
  total : Int
  bus : Nat
  score : Nat
  nextTick : Nat
deriving DecidableEq, Repr

/-- The Window accumulator (R9 to R16, R19). `countdown` is absent while it is stopped. `sampleDue` is the model's own: a
window-sample tick has come and its WINDOW_SAMPLE step has not (assumption log 8). `closedThroughout` and `pathChanged` are those
of the open window; from the 64th sample of a window to its WINDOW_CLOSE step, `endedClosed` and `endedChanged` hold those of the
window that has ended, so that a change between the two belongs to the new one (R12). -/
structure Wac where
  sums : PerString Int
  boxSum : Int
  count : Nat
  closedThroughout : PerString Bool
  pathChanged : Bool
  endedClosed : PerString Bool
  endedChanged : Bool
  countdown : Option Nat
  sampleDue : Bool
  windowNumber : BitVec 16
  means : PerString Int
  boxValid : Bool
  mismatchRun : Nat
  matchRun : Nat
deriving DecidableEq, Repr

/-! ### Array bus unit (chapter 2) -/

/-- The receive states (section 2.2). -/
inductive RxState where
  | gapWait
  | ready
  | header
  | body
deriving DecidableEq, Repr

/-- The transmit states (section 2.7). -/
inductive TxState where
  | empty
  | waiting
  | deferring
  | sending
deriving DecidableEq, Repr

/-- The kinds of telegram the part sends (R34). -/
inductive TxKind where
  | digest
  | arcClaim
  | reply
deriving DecidableEq, Repr

/-- An entry of the transmit queue (R34). Its class follows from its kind. `replaced` records that the body was replaced while
the entry was in flight (R41, R42). -/
structure TxEntry where
  kind : TxKind
  dest : Nat
  body : List Byte
  attempts : Nat
  inFlight : Bool
  replaced : Bool
deriving DecidableEq, Repr

/-- A running deferral: its start in microseconds and its slots of 200 microseconds (R39). -/
structure Deferral where
  start : Nat
  slots : Nat
deriving DecidableEq, Repr

/-- The bus tally (R33). -/
structure Tally where
  valid : Nat
  crcDiscard : Nat
  byteDiscard : Nat
  headerIgnored : Nat
  collisions : Nat
  txDropped : Nat
  repliesSuperseded : Nat
deriving DecidableEq, Repr

/-- The Array bus unit. `taken` holds the bytes of the telegram being received, `lastByteEnd` the microsecond at which the last
byte on the line ended, `frame` the telegram being sent and `readBack` how many of its bytes were read back unchanged. `draws`
is the model's own counter of deferral draws (assumption log 9). -/
structure Abu where
  rx : RxState
  taken : List Byte
  lastByteEnd : Nat
  tx : TxState
  deferral : Option Deferral
  frame : List Byte
  readBack : Nat
  queue : List TxEntry
  tally : Tally
  silent : Bool
  draws : Nat
deriving DecidableEq, Repr

/-! ### Peer table (chapter 3) -/

/-- A group entry of a digest or of a peer's record (R44). -/
structure GroupEntry where
  group : Nat
  count : Nat
  median : Option Int
  valid : Bool
deriving DecidableEq, Repr

/-- A peer entry (R44). -/
structure PeerEntry where
  station : Nat
  feeder : Nat
  lastHeard : Ms
  lastDigest : Option Ms
  groups : List GroupEntry
deriving DecidableEq, Repr

/-- The peer table: its entries in ascending station number (assumption log 21) and the peer-overflow count (R44). -/
structure Ptb where
  entries : List PeerEntry
  overflow : Nat
deriving DecidableEq, Repr

/-! ### Reference unit and Adjudicator (chapters 4 and 5) -/

/-- The window verdicts (R69). -/
inductive Verdict where
  | full
  | partialWindow
  | dark
  | held
deriving DecidableEq, Repr

/-- The three fields the Reference unit keeps for a string (R59). -/
structure RfuString where
  normalized : Int
  verdict : Option Verdict
  deviation : Option Int
deriving DecidableEq, Repr

/-- A group record (R68). An absent reference is UNAVAILABLE (R67). -/
structure GroupRecord where
  contributors : Nat
  reference : Option Int
  dark : Bool
deriving DecidableEq, Repr

/-- The Reference unit: the string fields and the group records of groups 0 to 7. -/
structure Rfu where
  strings : PerString RfuString
  groups : Vector (Option GroupRecord) 8
deriving DecidableEq, Repr

/-- The adjudication record of a string (R82). -/
structure AdjRecord where
  strikes : Nat
  reverseRun : Nat
  reversePeak : Option Int
  overRun : Nat
  overPeak : Option Int
deriving DecidableEq, Repr

/-! ### Arc contest unit (chapter 6) -/

/-- A score with the twelve noise shares of its period (R100, R102). -/
structure Peak where
  score : Nat
  shares : PerString Nat
deriving DecidableEq, Repr

/-- A station and its score: the best rival of a contest (R102). -/
structure BestRival where
  station : Nat
  score : Nat
deriving DecidableEq, Repr

/-- The contest record (R102): each state with the fields present in it. -/
inductive Contest where
  | idle
  | contest (round : Nat) (ownPeak : Peak) (chosen : StringIdx) (windowEnd : Ms) (bestRival : Option BestRival)
  | yielded (round : Nat) (resolution : Option Ms) (quietSince : Option Ms)
  | settle (settleEnd : Ms)
deriving DecidableEq, Repr

/-- An entry of the rival list (R104). -/
structure Rival where
  station : Nat
  score : Nat
  arrival : Ms
deriving DecidableEq, Repr

/-- The Arc contest unit: alarm run and run peak (R100), contest record (R102), rival list, oldest first (R104), and the
unlocated-arc latch (R115). -/
structure Acu where
  alarmRun : Nat
  runPeak : Option Peak
  contest : Contest
  rivals : List Rival
  latch : Bool
deriving DecidableEq, Repr

/-! ### String path sequencer (chapter 7) -/

/-- The path states (R118). -/
inductive PathState where
  | closed
  | opening
  | confirming
  | parting
  | isolated
  | making
  | closing
  | stuck
deriving DecidableEq, Repr

/-- The causes of a declaration (R91). -/
inductive Cause where
  | lowOutput
  | highOutput
  | reverseCurrent
  | overcurrent
  | arc
  | switchStuck
deriving DecidableEq, Repr

/-- The isolation reasons (R118). -/
inductive Reason where
  | fault (cause : Cause)
  | manual
  | shutdown
  | startup
deriving DecidableEq, Repr

/-- The path part of a string's record (R118). -/
structure Path where
  state : PathState
  level : Nat
  stepCount : Option Nat
  stepsLeft : Option Nat
  deadline : Option Ms
  reason : Option Reason
  isolationStart : Option Ms
deriving DecidableEq, Repr

/-! ### Hold manager (chapter 8) -/

/-- The hold part of a string's record (R139). RETRY, STARTUP and VOLTAGE_WAIT are in the hold set exactly while their time is
present, so the time stands for both (assumption log 23). -/
structure Hold where
  lockout : Bool
  manual : Bool
  shutdown : Bool
  startupUntil : Option Ms
  retryUntil : Option Ms
  voltageRecheck : Option Ms
  retryCount : Nat
  closedSince : Option Ms
  suspect : Bool
deriving DecidableEq, Repr

/-- The Hold manager: the hold parts, the level of the shutdown input as last read on a tick, the level as last taken by an event
(R147), and the lockout-page-lost flag (R149). -/
structure Hld where
  strings : PerString Hold
  input : Bool
  shutdown : Bool
  pageLost : Bool
deriving DecidableEq, Repr

/-! ### Nonvolatile store (chapters 8 and 11) -/

/-- The store's bytes: (address, byte) pairs, addresses rising, none equal to the erased value 0xFF (assumption log 5). -/
abbrev Memory := List Host.Cell

/-- The kinds of write (R176). -/
inductive WriteKind where
  | lockoutPage
  | program
  | erase
  | sealing
deriving DecidableEq, Repr

/-- A write in flight: its kind, the first page it concerns, the bytes to be programmed there at completion, the uptime of its
completion, and whether a deferred DONE is still owed for it (R176, R177, R179). -/
structure Write where
  kind : WriteKind
  page : Nat
  content : List Byte
  done : Ms
  answerOwed : Bool
deriving DecidableEq, Repr

/-- The Nonvolatile store: pages, seal, page buffer, write state (IDLE when `write` is absent), pending flag, offending field,
last reset kind. `cuts` is the model's own counter of writes cut off by a reset (assumption log 10). -/
structure Nvs where
  store : Memory
  sealSet : Bool
  buffer : List Byte
  write : Option Write
  pendingMask : Bool
  offending : Nat
  lastReset : ResetKind
  cuts : Nat
deriving DecidableEq, Repr

/-! ### Fault log (chapter 9) -/

/-- The outcomes of a fault record (R93). -/
inductive FaultOutcome where
  | isolated
  | reported
  | isolationFailed
deriving DecidableEq, Repr

/-- A fault record (R153). It is acknowledged exactly when an acknowledging station is present. -/
structure FaultRecord where
  seq : Nat
  string : StringIdx
  cause : Cause
  seconds : Nat
  detail : Int
  reference : Option Int
  contributors : Option Nat
  outcome : FaultOutcome
  ackBy : Option Nat
  declared : Option Ms
deriving DecidableEq, Repr

/-- The Fault log: its records, oldest first, the next sequence number and the lost-unacknowledged count. -/
structure Flg where
  records : List FaultRecord
  nextSeq : Nat
  lost : Nat
deriving DecidableEq, Repr

/-! ### Request handler and service link (chapters 10 and 11) -/

/-- A delivered request that has not been carried out yet: its source and body (R163). -/
structure Request where
  source : Nat
  body : List Byte
deriving DecidableEq, Repr

/-- The session states (R177). -/
inductive Session where
  | none
  | entry1
  | entry2
  | entry3
  | opened
deriving DecidableEq, Repr

/-- An answer on its way: its bytes and the microsecond at which its last byte has been sent (assumption log 16). -/
structure Answer where
  bytes : List Byte
  sentAt : Nat
deriving DecidableEq, Repr

/-- The Service link unit. `lastByte` is the uptime, in milliseconds, of the last received byte; `restart` is the moment, on the
microsecond count, at which the answer of a taken RESTART has been sent (R181). -/
structure Svl where
  session : Session
  loadedPage : Nat
  receiving : List Byte
  skipping : Bool
  lastByte : Ms
  answers : List Answer
  linkFree : Nat
  restart : Option Nat
deriving DecidableEq, Repr

/-! ### Arrivals on their way (R7, R85, R91) -/

/-- The judgement of one string in a window: its verdict, and with FULL the deviation, the reference and the contributor count,
which are present exactly then (R76). -/
inductive Judgement where
  | full (deviation reference : Int) (contributors : Nat)
  | partialWindow
  | dark
  | held
deriving DecidableEq, Repr

/-- An entry of the verdict set (R76). -/
structure VerdictEntry where
  string : StringIdx
  judgement : Judgement
deriving DecidableEq, Repr

/-- What a block has sent and another has not taken yet: a consumer's part of a tick sample set (R7), the verdict set at the
Adjudicator (R83), the window close at the Hold manager (R144). -/
inductive Arrival where
  | tick (part : TickPart)
  | verdicts (set : List VerdictEntry)
  | goodRun
deriving DecidableEq, Repr

/-- An open demand on its way to a string's sequencer: its reason and its step count (R91, R120). -/
structure Demand where
  string : StringIdx
  reason : Reason
  steps : Nat
deriving DecidableEq, Repr

/-! ### The whole machine -/

/-- The state of the part, and the queue of commands that wait. `arrivals` and `demands` are what is on its way between the blocks at
one moment, oldest first; both are taken before any time passes (assumption log 6). -/
structure State where
  timeUs : Nat
  settings : Option Settings
  sfe : Sfe
  wac : Wac
  abu : Abu
  ptb : Ptb
  rfu : Rfu
  adj : PerString AdjRecord
  acu : Acu
  paths : PerString Path
  boxTrip : Bool
  hld : Hld
  nvs : Nvs
  flg : Flg
  requests : List Request
  svl : Svl
  arrivals : List Arrival
  demands : List Demand
  pending : List Instr
deriving DecidableEq, Repr

/-! ### Values after reset -/

/-- The neutral pair (R6), in use for a channel whose own pair is out of range. -/
def Trim.neutral : Trim := ⟨0, 1024, true⟩

/-- R8, and R1: the first tick comes 10 ms after the settings and trims are latched. -/
def Sfe.reset (trims : PerString Trim) (totalTrim : Trim) : Sfe :=
  { trims, totalTrim
    currents := Vector.replicate 12 0
    voltages := Vector.replicate 12 0
    shares := Vector.replicate 12 0
    total := 0, bus := 0, score := 0, nextTick := 10000 }

/-- R19. -/
def Wac.reset : Wac :=
  { sums := Vector.replicate 12 0, boxSum := 0, count := 0
    closedThroughout := Vector.replicate 12 true, pathChanged := false
    endedClosed := Vector.replicate 12 true, endedChanged := false
    countdown := none, sampleDue := false, windowNumber := 0
    means := Vector.replicate 12 0, boxValid := true, mismatchRun := 0, matchRun := 0 }

/-- R33: all seven counts at 0. -/
def Tally.zero : Tally := ⟨0, 0, 0, 0, 0, 0, 0⟩

/-- R43. The counter of draws is the model's own and goes on. -/
def Abu.reset (draws : Nat) : Abu :=
  { rx := .gapWait, taken := [], lastByteEnd := 0, tx := .empty, deferral := none, frame := [], readBack := 0
    queue := [], tally := Tally.zero, silent := false, draws }

/-- R57. -/
def Ptb.reset : Ptb := ⟨[], 0⟩

/-- R59, R80. -/
def Rfu.reset : Rfu := ⟨Vector.replicate 12 ⟨0, none, none⟩, Vector.replicate 8 none⟩

/-- R97. -/
def AdjRecord.reset : AdjRecord := ⟨0, 0, none, 0, none⟩

/-- R116. -/
def Acu.reset : Acu := ⟨0, none, .idle, [], false⟩

/-- R138. -/
def Path.reset : Path := ⟨.isolated, 0, none, none, none, some .startup, none⟩

/-- R139. -/
def Hold.reset : Hold := ⟨false, false, false, none, none, none, 0, none, false⟩

/-- R161, the column POWER_ON, SUPPLY_DIP. -/
def Flg.reset : Flg := ⟨[], 1, 0⟩

/-- R174: no session, loaded page address 0. -/
def Svl.reset : Svl := ⟨.none, 0, [], false, 0, [], 0, none⟩

/-- The machine right after a POWER_ON and its settings load, with the store as it is before anything was ever written to it:
every byte erased and the seal cleared, so that the record fails at field 1 and the station is UNCOMMISSIONED (R174, R175). The
store's content is the model's choice, unsafe: assumption log 5. -/
def State.reset : State :=
  { timeUs := 0
    settings := none
    sfe := Sfe.reset (Vector.replicate 12 Trim.neutral) Trim.neutral
    wac := Wac.reset
    abu := Abu.reset 0
    ptb := Ptb.reset
    rfu := Rfu.reset
    adj := Vector.replicate 12 AdjRecord.reset
    acu := Acu.reset
    paths := Vector.replicate 12 Path.reset
    boxTrip := false
    hld := ⟨Vector.replicate 12 Hold.reset, false, false, false⟩
    nvs := { store := [], sealSet := false, buffer := List.replicate 64 0xFF, write := none, pendingMask := false
             offending := 1, lastReset := .powerOn, cuts := 0 }
    flg := Flg.reset
    requests := []
    svl := Svl.reset
    arrivals := []
    demands := []
    pending := [] }

end Sys2Proof.Machine
end

