-- ==== Sys2Proof/Machine/Ops.lean ====
section
/-! DEFINITION. The named operations every block uses: arithmetic with the spec's roundings and clamps, bytes and the check value,
the store's memory, the timebase, and the accessors of State. -/

namespace Sys2Proof.Machine

/-! ### Arithmetic (00_scope.md 4.1) -/

/-- Reduce a value to its range. -/
def clampInt (lo hi x : Int) : Int := max lo (min hi x)

/-- Division rounded to the nearest integer, a tie away from zero (R13, R61). -/
def roundDiv (n : Int) (d : Nat) : Int :=
  if n < 0 then -(((2 * n.natAbs + d) / (2 * d) : Nat) : Int) else (((2 * n.natAbs + d) / (2 * d) : Nat) : Int)

/-- A count that saturates at its greatest value (R33, R44, R156). -/
def satSucc (top n : Nat) : Nat := if n < top then n + 1 else n

/-- Insert a value into an ascending list. -/
def insertInt (x : Int) : List Int → List Int
  | [] => [x]
  | y :: l => if x ≤ y then x :: y :: l else y :: insertInt x l

/-- Sort a list of values in ascending order. -/
def sortInts : List Int → List Int
  | [] => []
  | x :: l => insertInt x (sortInts l)

/-- The median of R66: the middle value of an odd count; for an even count the sum of the two middle values divided by 2,
truncated toward zero. -/
def median (l : List Int) : Int :=
  let sorted := sortInts l
  let half := l.length / 2
  if l.length % 2 = 1 then sorted.getD half 0 else (sorted.getD (half - 1) 0 + sorted.getD half 0).tdiv 2

/-! ### Calibration (section 1.2) -/

/-- R2. -/
def calibrateCurrent (t : Trim) (raw : BitVec 12) : Int :=
  clampInt (-2000) 2000 ((((raw.toNat : Int) - 2048 - t.offset) * t.gain).tdiv 1024)

/-- R3. -/
def calibrateTotal (t : Trim) (raw : BitVec 12) : Int :=
  clampInt (-24000) 24000 ((((raw.toNat : Int) - 2048 - t.offset) * t.gain * 12).tdiv 1024)

/-- R4. -/
def calibrateVoltage (raw : BitVec 12) : Nat := raw.toNat * 600 / 1024

/-! ### Bytes: most significant byte first (R182) -/

/-- One byte. -/
def byteOf (n : Nat) : Byte := BitVec.ofNat 8 n

/-- A flag byte or a line level. -/
def flagByte (b : Bool) : Byte := if b then 1 else 0

/-- A two-byte field. -/
def be16 (n : Nat) : List Byte := [byteOf (n / 256), byteOf n]

/-- A four-byte field. -/
def be32 (n : Nat) : List Byte := [byteOf (n / 16777216), byteOf (n / 65536), byteOf (n / 256), byteOf n]

/-- A signed two-byte field, in two's complement. -/
def signed16 (x : Int) : List Byte := be16 (BitVec.ofInt 16 x).toNat

/-- The value of a two-byte field. -/
def word16 (hi lo : Byte) : Nat := hi.toNat * 256 + lo.toNat

/-- The value of a signed two-byte field. -/
def signedWord16 (hi lo : Byte) : Int := (BitVec.ofNat 16 (word16 hi lo)).toInt

/-! ### The check value (R23) -/

/-- One data bit: the register shifts left, and the polynomial is combined when the bit shifted out differs from the data bit. -/
def crcBit (reg : BitVec 16) (bit : Bool) : BitVec 16 :=
  if reg.msb = bit then reg <<< 1 else (reg <<< 1) ^^^ 0x1021

/-- One byte, most significant bit first. -/
def crcByte (reg : BitVec 16) (b : Byte) : BitVec 16 :=
  [7, 6, 5, 4, 3, 2, 1, 0].foldl (fun r k => crcBit r (b.getLsbD k)) reg

/-- The check value of a run of bytes. The register starts at 0xFFFF. -/
def crc16 (bytes : List Byte) : BitVec 16 := bytes.foldl crcByte 0xFFFF

/-! ### The store's memory (R176): 64 bytes a page, an unlisted byte reads as erased -/

/-- What an unlisted address reads as: the erased byte. -/
def erasedByte : Byte := 0xFF

/-- The byte at an address. -/
def Memory.read : Memory → Nat → Byte
  | [], _ => erasedByte
  | (k, b) :: m, a => if k = a then b else Memory.read m a

/-- Write one byte. Writing the erased byte removes the entry. -/
def Memory.write : Memory → Nat → Byte → Memory
  | [], a, b => if b = erasedByte then [] else [(a, b)]
  | (k, c) :: m, a, b =>
    if a < k then (if b = erasedByte then (k, c) :: m else (a, b) :: (k, c) :: m)
    else if a = k then (if b = erasedByte then m else (a, b) :: m)
    else (k, c) :: Memory.write m a b

/-- The canonical form: addresses strictly rising, and no entry equal to what an unlisted address reads as. -/
def Memory.wf : Memory → Bool
  | [] => true
  | (k, b) :: m => b != erasedByte && m.all (fun c => decide (k < c.1)) && Memory.wf m

/-- Write bytes at rising addresses. -/
def Memory.writeBytes (m : Memory) (a : Nat) : List Byte → Memory
  | [] => m
  | b :: bs => Memory.writeBytes (Memory.write m a b) (a + 1) bs

/-- The bytes of a page. -/
def Memory.page (m : Memory) (p : Nat) : List Byte := (List.range 64).map fun k => Memory.read m (64 * p + k)

/-- Erase a page. -/
def Memory.erasePage (m : Memory) (p : Nat) : Memory := m.filter fun c => c.1 / 64 != p

/-- Erase a page and program bytes into it from its byte 0. -/
def Memory.programPage (m : Memory) (p : Nat) (content : List Byte) : Memory :=
  Memory.writeBytes (Memory.erasePage m p) (64 * p) (content.take 64)

/-! ### The timebase (00_scope.md 4.3) -/

namespace State

/-- Let microseconds of uptime pass. -/
def elapse (dt : Nat) (s : State) : State := { s with timeUs := s.timeUs + dt }

/-- The uptime in milliseconds. -/
def nowMs (s : State) : Ms := BitVec.ofNat 32 (s.timeUs / 1000)

/-- The uptime in whole seconds. -/
def seconds (s : State) : Nat := s.timeUs / 1000000

end State

/-- A span of milliseconds. -/
def ms (n : Nat) : Ms := BitVec.ofNat 32 n

/-- How long ago a time was, by difference. -/
def since (now t : Ms) : Nat := (now - t).toNat

/-- Whether a deadline has been reached, by difference: the uptime stands less than half a cycle past it (assumption log 3). -/
def reached (now deadline : Ms) : Bool := decide (since now deadline < 2 ^ 31)

/-- Whether an optional deadline is present and has been reached. -/
def reachedOpt (now : Ms) : Option Ms → Bool
  | none => false
  | some deadline => reached now deadline

/-! ### Accessors of State -/

namespace State

def withSettings (c : Option Settings) (s : State) : State := { s with settings := c }
def withSfe (x : Sfe) (s : State) : State := { s with sfe := x }
def withWac (x : Wac) (s : State) : State := { s with wac := x }
def withAbu (x : Abu) (s : State) : State := { s with abu := x }
def withPtb (x : Ptb) (s : State) : State := { s with ptb := x }
def withRfu (x : Rfu) (s : State) : State := { s with rfu := x }
def withAcu (x : Acu) (s : State) : State := { s with acu := x }
def withBoxTrip (x : Bool) (s : State) : State := { s with boxTrip := x }
def withHld (x : Hld) (s : State) : State := { s with hld := x }
def withNvs (x : Nvs) (s : State) : State := { s with nvs := x }
def withFlg (x : Flg) (s : State) : State := { s with flg := x }
def withRequests (x : List Request) (s : State) : State := { s with requests := x }
def withSvl (x : Svl) (s : State) : State := { s with svl := x }
def withArrivals (x : List Arrival) (s : State) : State := { s with arrivals := x }
def withDemands (x : List Demand) (s : State) : State := { s with demands := x }

/-- The path part of a string's record. -/
def path (s : State) (i : StringIdx) : Path := s.paths[i]

def setPath (i : StringIdx) (p : Path) (s : State) : State := { s with paths := s.paths.set i p }

/-- The adjudication record of a string. -/
def adjOf (s : State) (i : StringIdx) : AdjRecord := s.adj[i]

def setAdj (i : StringIdx) (a : AdjRecord) (s : State) : State := { s with adj := s.adj.set i a }

/-- The hold part of a string's record. -/
def hold (s : State) (i : StringIdx) : Hold := s.hld.strings[i]

def setHold (i : StringIdx) (h : Hold) (s : State) : State :=
  { s with hld := { s.hld with strings := s.hld.strings.set i h } }

/-- Whether a string is present: so latched at the last load; no string is in UNCOMMISSIONED. -/
def present (s : State) (i : StringIdx) : Bool :=
  match s.settings with
  | none => false
  | some c => c.strings[i].present

end State

end Sys2Proof.Machine
end

