-- ==== Sys2Proof/Machine/Flags.lean ====
section
/-! DEFINITION. The flags, lines and masks that are views of the state: station mode, relay outputs, indicator line, standing,
hold sets and their masks, freshness. -/

namespace Sys2Proof.Machine

namespace State

/-- The station mode (R175, R31). -/
def mode (s : State) : Mode :=
  match s.settings with
  | none => .uncommissioned
  | some _ => if s.abu.silent then .silent else .run

/-- The indicator line: lit exactly when the log holds an unacknowledged record or the lost count is above 0 (R158). -/
def indicator (s : State) : Bool := s.flg.records.any (fun r => r.ackBy.isNone) || decide (0 < s.flg.lost)

/-- Whether any string is in STUCK (R137). -/
def anyStuck (s : State) : Bool := StringIdx.all.any fun i => decide ((s.path i).state = .stuck)

/-- Whether any string has its switch-suspect flag set (R137). -/
def anySuspect (s : State) : Bool := StringIdx.all.any fun i => (s.hold i).suspect

/-- Whether every present string is ISOLATED (R178, check 2). -/
def presentIsolated (s : State) : Bool := StringIdx.all.all fun i => !s.present i || decide ((s.path i).state = .isolated)

end State

/-- The relay is commanded open, or open, in PARTING and ISOLATED alone (R118, the table of relays). -/
def Path.relayOpen (p : Path) : Bool := decide (p.state = .parting) || decide (p.state = .isolated)

/-- The fast checks test a string, and the Arc contest unit counts it as a candidate, in CLOSED and CLOSING (R87, R101). -/
def Path.connected (p : Path) : Bool := decide (p.state = .closed) || decide (p.state = .closing)

/-- The zero band: a magnitude of 20 or less (R124). -/
def inZeroBand (current : Int) : Bool := decide (current.natAbs ≤ 20)

/-- The line driver drives the bus while a telegram is being sent (R21, R43). -/
def Abu.driving (a : Abu) : Bool := decide (a.tx = .sending)

/-- The standing is WATCH from one strike on (R82). -/
def AdjRecord.watch (a : AdjRecord) : Bool := decide (0 < a.strikes)

/-! ### Hold sets and masks (R139, R150) -/

/-- The hold set is empty. -/
def Hold.empty (h : Hold) : Bool :=
  !h.lockout && !h.manual && !h.shutdown && h.startupUntil.isNone && h.retryUntil.isNone && h.voltageRecheck.isNone

/-- The hold set holds VOLTAGE_WAIT alone. -/
def Hold.voltageWaitAlone (h : Hold) : Bool :=
  !h.lockout && !h.manual && !h.shutdown && h.startupUntil.isNone && h.retryUntil.isNone && h.voltageRecheck.isSome

/-- The hold set as one bit per hold (R182: LOCKOUT 0, MANUAL 1, SHUTDOWN 2, STARTUP 3, RETRY 4, VOLTAGE_WAIT 5). -/
def Hold.bits (h : Hold) : Nat :=
  h.lockout.toNat + 2 * h.manual.toNat + 4 * h.shutdown.toNat + 8 * h.startupUntil.isSome.toNat
    + 16 * h.retryUntil.isSome.toNat + 32 * h.voltageRecheck.isSome.toNat

/-- A string mask: string n occupies bit n - 1 (R182). -/
def maskOf (f : StringIdx → Bool) : Nat := StringIdx.all.foldl (fun m i => m + if f i then 2 ^ i.val else 0) 0

/-- The LOCKOUT mask: the present strings whose hold set contains LOCKOUT (R150). -/
def State.lockoutMask (s : State) : Nat := maskOf fun i => s.present i && (s.hold i).lockout

/-- The MANUAL mask (R150). -/
def State.manualMask (s : State) : Nat := maskOf fun i => s.present i && (s.hold i).manual

/-! ### Freshness (R45) -/

/-- The own window length in milliseconds: 64 sample intervals (R9). -/
def Settings.windowLength (c : Settings) : Nat := 64 * c.sampleInterval

/-- An entry's digest is fresh when its time is present and no more than two window lengths ago. -/
def PeerEntry.fresh (c : Settings) (now : Ms) (e : PeerEntry) : Bool :=
  match e.lastDigest with
  | none => false
  | some t => decide (since now t ≤ 2 * c.windowLength)

/-- Whether a station is one of the operator stations (R164). -/
def Settings.isOperator (c : Settings) (station : Nat) : Bool := decide (station ≠ 0) && c.operators.contains station

end Sys2Proof.Machine
end

