-- ==== Sys2Proof/Machine/Operands.lean ====
section
/-! DEFINITION. The operand forms: codes and byte layouts of telegrams, requests, reports, records and store pages (chapter 12). -/

namespace Sys2Proof.Machine

/-! ### Value codes (12.1) -/

/-- Telegram kind codes. -/
def digestCode : Byte := 0x21
def arcClaimCode : Byte := 0x2A
def requestCode : Byte := 0x31
def replyCode : Byte := 0x32

/-- Whether a kind code names one of the four kinds (R25). -/
def isTelegramKind (b : Byte) : Bool :=
  decide (b = digestCode) || decide (b = arcClaimCode) || decide (b = requestCode) || decide (b = replyCode)

def TxKind.code : TxKind → Byte
  | .digest => digestCode
  | .arcClaim => arcClaimCode
  | .reply => replyCode

def PathState.code : PathState → Nat
  | .closed => 0
  | .opening => 1
  | .confirming => 2
  | .parting => 3
  | .isolated => 4
  | .making => 5
  | .closing => 6
  | .stuck => 7

def PathState.all : List PathState := [.closed, .opening, .confirming, .parting, .isolated, .making, .closing, .stuck]

def Cause.code : Cause → Nat
  | .lowOutput => 1
  | .highOutput => 2
  | .reverseCurrent => 3
  | .overcurrent => 4
  | .arc => 5
  | .switchStuck => 6

def Reason.code : Reason → Nat
  | .fault c => c.code
  | .manual => 7
  | .shutdown => 8
  | .startup => 9

def verdictCode : Option Verdict → Nat
  | none => 0
  | some .full => 1
  | some .partialWindow => 2
  | some .dark => 3
  | some .held => 4

def FaultOutcome.code : FaultOutcome → Nat
  | .isolated => 1
  | .reported => 2
  | .isolationFailed => 3

def Mode.code : Mode → Nat
  | .uncommissioned => 0
  | .run => 1
  | .silent => 2

def ResetKind.code : ResetKind → Nat
  | .powerOn => 1
  | .supplyDip => 2
  | .serviceRestart => 3

/-- Reply results. -/
def resultDone : Byte := 0
def resultNotPermitted : Byte := 1
def resultBadArgument : Byte := 2
def resultStaleSequence : Byte := 3

/-- Service link statuses (12.4). -/
def statusDone : Byte := 0
def statusBadPage : Byte := 1
def statusStringsClosed : Byte := 2
def statusBusy : Byte := 3
def statusSealed : Byte := 4
def statusNotLoadable : Byte := 5
def statusBadCommand : Byte := 6

/-! ### Telegrams (R22, 12.2) -/

/-- A received telegram: kind code, source, destination, feeder and body. -/
structure Telegram where
  kind : Byte
  source : Nat
  dest : Nat
  feeder : Nat
  body : List Byte
deriving DecidableEq, Repr

/-- The body length that a header promises: its fifth byte. -/
def promisedLength (taken : List Byte) : Nat := (taken.getD 4 0).toNat

/-- The number of bytes of the whole telegram whose header has been taken: header, body and two check bytes. -/
def telegramLength (taken : List Byte) : Nat := 5 + promisedLength taken + 2

/-- The telegram in a complete run of bytes. -/
def telegramOf (bytes : List Byte) : Telegram :=
  { kind := bytes.getD 0 0
    source := (bytes.getD 1 0).toNat
    dest := (bytes.getD 2 0).toNat
    feeder := (bytes.getD 3 0).toNat
    body := (bytes.drop 5).take (promisedLength bytes) }

/-- Whether the two check bytes of a complete telegram agree with the value computed over header and body (R23, R27). -/
def checkAgrees (bytes : List Byte) : Bool :=
  let covered := bytes.take (5 + promisedLength bytes)
  decide (bytes.drop (5 + promisedLength bytes) = be16 (crc16 covered).toNat)

/-- The framed telegram of an entry: kind, own station, destination, own feeder, body length, body, check value (R34). -/
def TxEntry.frame (c : Settings) (e : TxEntry) : List Byte :=
  let covered := [e.kind.code, byteOf c.station, byteOf e.dest, byteOf c.feeder, byteOf e.body.length] ++ e.body
  covered ++ be16 (crc16 covered).toNat

/-- An ARC_CLAIM as read from its body: round, outcome code, score, string index. -/
structure Claim where
  round : Nat
  outcome : Nat
  score : Nat
  string : Nat
deriving DecidableEq, Repr

/-- The ARC_CLAIM body of 5 bytes. -/
def claimBody (round outcome score : Nat) (i : StringIdx) : List Byte :=
  [byteOf round, byteOf outcome] ++ be16 score ++ [byteOf (i.val + 1)]

/-- Read an ARC_CLAIM body; none where R103 discards it. -/
def parseClaim : List Byte → Option Claim
  | [r, o, h, l, i] =>
    let score := word16 h l
    if (r.toNat = 1 ∨ r.toNat = 2) ∧ (o.toNat = 1 ∨ o.toNat = 2) ∧ score ≤ 1023 ∧ 1 ≤ i.toNat ∧ i.toNat ≤ 12 then
      some ⟨r.toNat, o.toNat, score, i.toNat⟩
    else none
  | _ => none

/-- A group entry of a DIGEST body: 5 bytes. The flag bits that 12.2 leaves to be ignored are sent as 0 (assumption log 32). -/
def groupEntryBytes (g : GroupEntry) : List Byte :=
  [byteOf g.group, byteOf g.count, byteOf (g.valid.toNat + 2 * g.median.isSome.toNat)] ++ signed16 (g.median.getD 0)

/-- The DIGEST body. -/
def digestBody (window : BitVec 16) (groups : List GroupEntry) : List Byte :=
  be16 window.toNat ++ [byteOf groups.length] ++ (groups.map groupEntryBytes).flatten

/-- Read group entries of 5 bytes each; none where a field fails R47. -/
def parseGroups : List Byte → Option (List GroupEntry)
  | [] => some []
  | g :: c :: f :: h :: l :: rest =>
    let hasMedian := f.getLsbD 1
    let value := signedWord16 h l
    if g.toNat ≤ 7 ∧ c.toNat ≤ 12 ∧ (hasMedian = true ↔ 1 ≤ c.toNat) ∧ (hasMedian = true → -4000 ≤ value ∧ value ≤ 4000) then
      match parseGroups rest with
      | none => none
      | some gs => some (⟨g.toNat, c.toNat, if hasMedian then some value else none, f.getLsbD 0⟩ :: gs)
    else none
  | _ => none

/-- Groups stand in strictly ascending order. -/
def groupsAscend : List GroupEntry → Bool
  | [] => true
  | [_] => true
  | g :: h :: rest => decide (g.group < h.group) && groupsAscend (h :: rest)

/-- The check of R47 on a DIGEST body and the telegram's feeder: the group list, or none where the digest is discarded. -/
def parseDigest (feeder : Nat) (body : List Byte) : Option (List GroupEntry) :=
  let n := (body.getD 2 0).toNat
  if 3 ≤ body.length ∧ n ≤ 8 ∧ body.length = 3 + 5 * n ∧ feeder ≤ 15 then
    match parseGroups (body.drop 3) with
    | none => none
    | some gs => if groupsAscend gs then some gs else none
  else none

/-! ### Requests (12.3) -/

/-- Whether a code names one of the seven request kinds. -/
def isRequestKind (b : Byte) : Bool := decide (1 ≤ b.toNat) && decide (b.toNat ≤ 7)

/-- Check 1 of R164: the body is at least three bytes long and its kind is one of the seven. -/
def requestReadable (body : List Byte) : Bool := decide (3 ≤ body.length) && isRequestKind (body.getD 0 0)

/-- Check 3 of R164 as R183 states it: the argument length is that of the kind, and the body is 3 bytes longer. -/
def requestLengthOk (argLen : Nat) (body : List Byte) : Bool :=
  decide ((body.getD 2 0).toNat = argLen) && decide (body.length = 3 + argLen)

/-- Whether a mask names a string. -/
def maskHas (mask : Nat) (i : StringIdx) : Bool := mask.testBit i.val

/-- The strings a mask names, in ascending index. -/
def maskStrings (mask : Nat) : List StringIdx := StringIdx.all.filter (maskHas mask)

/-- Whether a mask's bits 12 to 15 are clear, as a REQUEST's must be (R182). -/
def maskOk (mask : Nat) : Bool := decide (mask < 4096)

/-! ### Reports and records (12.3) -/

/-- A fault record of 14 bytes. Bits 6 to 2 of byte 12, to which 12.3 gives no meaning, are sent as 0 (assumption log 32). -/
def FaultRecord.bytes (r : FaultRecord) : List Byte :=
  be16 r.seq ++ [byteOf (16 * (r.string.val + 1) + r.cause.code)] ++ be32 r.seconds ++ signed16 r.detail
    ++ signed16 (r.reference.getD 0) ++ [byteOf (r.contributors.getD 0)]
    ++ [byteOf (r.outcome.code + 128 * r.ackBy.isSome.toNat), byteOf (r.ackBy.getD 0)]

/-- The group record kept for a group, if there is one. -/
def Rfu.recordOf (r : Rfu) (group : Nat) : Option GroupRecord := r.groups.toList.getD group none

/-- What a reference asked for reads: where there is no group record, UNAVAILABLE with contributor count 0 (R68). -/
def Rfu.asked (r : Rfu) (group : Nat) : GroupRecord := (r.recordOf group).getD ⟨0, none, false⟩

/-- Whether a string report carries a group's reading: the string is present and its group has a group record (R170). -/
def State.reportsGroup (s : State) (c : Settings) (i : StringIdx) : Bool :=
  c.strings[i].present && (s.rfu.recordOf c.strings[i].group).isSome

/-- Bytes 16 to 18 of a string report: the group reference and the contributor count. For a present string of groups 0 to 7
between a reset and the first window close the spec says two things: R68 has the reference read UNAVAILABLE with count 0, and the
table of 12.3 has 0xFF with bytes 16 and 17 at 0 where the string has no group record. The model sends what the table says
(assumption log 28). -/
def groupReportBytes (reported : Bool) (g : GroupRecord) : List Byte :=
  if reported then
    (match g.reference with
      | none => [0x80, 0x00]
      | some r => signed16 r) ++ [byteOf g.contributors]
  else [0, 0, 0xFF]

/-- Bytes 0 to 2 of a string report: the settings of the string. -/
def settingsReportBytes (c : Settings) (suspect : Bool) (i : StringIdx) : List Byte :=
  let t := c.strings[i]
  if t.present then
    byteOf (128 + 64 * (decide (t.action = .reportOnly)).toNat + 32 * suspect.toNat + t.group % 16) :: be16 t.weight
  else byteOf (32 * suspect.toNat) :: be16 0

/-- A string report of 23 bytes (R170). Bits to which 12.3 gives no meaning are sent as 0 (assumption log 32). -/
def stringReport (c : Settings) (s : State) (i : StringIdx) : List Byte :=
  let a := s.adjOf i
  let p := s.path i
  let h := s.hold i
  let r := s.rfu.strings[i]
  settingsReportBytes c h.suspect i
    ++ signed16 s.sfe.currents[i] ++ be16 s.sfe.voltages[i] ++ be16 s.sfe.shares[i] ++ signed16 s.wac.means[i]
    ++ signed16 r.normalized ++ [byteOf (verdictCode r.verdict + 128 * a.watch.toNat)] ++ signed16 (r.deviation.getD 0)
    ++ groupReportBytes (s.reportsGroup c i) (s.rfu.asked c.strings[i].group)
    ++ [byteOf (a.strikes + 32 * h.retryCount),
        byteOf (16 * p.state.code + (if p.state = .closed then 0 else (p.reason.map Reason.code).getD 0)),
        byteOf p.level, byteOf h.bits]

/-- The number of present strings in a path state. -/
def State.countIn (s : State) (p : PathState) : Nat :=
  (StringIdx.all.filter fun i => s.present i && decide ((s.path i).state = p)).length

/-- The status block of READ_STATUS: bytes 3 to 30 of the reply (R169). -/
def statusBlock (c : Settings) (s : State) : List Byte :=
  byteOf Mode.run.code :: (PathState.all.map fun p => byteOf (s.countIn p))
    ++ [flagByte s.boxTrip, flagByte s.acu.latch, flagByte s.indicator, byteOf s.flg.lost, flagByte s.hld.input,
        flagByte s.hld.pageLost, flagByte s.wac.boxValid, byteOf s.ptb.entries.length,
        byteOf (s.ptb.entries.filter (PeerEntry.fresh c s.nowMs)).length,
        byteOf (s.ptb.entries.filter fun e => decide (e.feeder = c.feeder)).length]
    ++ be16 s.ptb.overflow ++ [byteOf s.nvs.lastReset.code] ++ signed16 s.sfe.total ++ be16 s.sfe.bus ++ be16 s.sfe.score

/-- The tally's seven counts, two bytes each (12.3, READ_TALLY). -/
def Tally.bytes (t : Tally) : List Byte :=
  be16 t.valid ++ be16 t.crcDiscard ++ be16 t.byteDiscard ++ be16 t.headerIgnored ++ be16 t.collisions ++ be16 t.txDropped
    ++ be16 t.repliesSuperseded

/-! ### Store pages (R184) -/

/-- The eight programmed bytes of the lockout page: marker, LOCKOUT mask, MANUAL mask, check value. -/
def lockoutPageBytes (lockout manual : Nat) : List Byte :=
  let covered := [0x3C, 0x27] ++ be16 lockout ++ be16 manual
  covered ++ be16 (crc16 covered).toNat

/-- The lockout page is good when its marker and check value are right. -/
def lockoutPageGood (m : Memory) : Bool :=
  let b := fun k => Memory.read m (128 + k)
  decide (b 0 = 0x3C) && decide (b 1 = 0x27)
    && decide ([b 6, b 7] = be16 (crc16 [b 0, b 1, b 2, b 3, b 4, b 5]).toNat)

/-- The masks on the lockout page. -/
def pageLockoutMask (m : Memory) : Nat := word16 (Memory.read m 130) (Memory.read m 131)
def pageManualMask (m : Memory) : Nat := word16 (Memory.read m 132) (Memory.read m 133)

/-- The value of byte `k` of the commissioning record: pages 0 and 1 as one sequence. -/
def recordByte (m : Memory) (k : Nat) : Nat := (Memory.read m k).toNat

/-- The value of the two-byte field at byte `k` of the commissioning record. -/
def recordWord (m : Memory) (k : Nat) : Nat := word16 (Memory.read m k) (Memory.read m (k + 1))

/-- A value lies in a range. -/
def inRange (lo hi n : Nat) : Bool := decide (lo ≤ n) && decide (n ≤ hi)

/-- The checks of fields 1 to 22 of the commissioning record, in field order (R175). -/
def stationFieldChecks (m : Memory) : List Bool :=
  [ decide (recordWord m 0 = 0x3C12),
    inRange 1 62 (recordByte m 2), inRange 0 15 (recordByte m 3),
    inRange 50 1000 (recordWord m 4) && decide (recordWord m 4 % 10 = 0),
    inRange 50 500 (recordWord m 6), inRange 50 500 (recordWord m 8),
    inRange 2 30 (recordByte m 10), inRange 2 15 (recordByte m 11),
    inRange 10 500 (recordWord m 12), inRange 50 500 (recordWord m 14), inRange 500 2000 (recordWord m 16),
    inRange 100 1000 (recordWord m 18), inRange 50 500 (recordWord m 20),
    inRange 1 16 (recordByte m 22), inRange 40 400 (recordWord m 23),
    inRange 1 240 (recordByte m 25), inRange 0 5 (recordByte m 26), inRange 1 24 (recordByte m 27),
    inRange 0 62 (recordByte m 28), inRange 0 62 (recordByte m 29), inRange 0 62 (recordByte m 30),
    inRange 0 62 (recordByte m 31) ]

/-- The checks of the four fields of a string: present flag, and of a present string group, weight and action (R175). -/
def stringFieldChecks (m : Memory) (i : StringIdx) : List Bool :=
  let at' := 32 + 5 * i.val
  let present := recordByte m at' = 1
  [ decide (recordByte m at' ≤ 1),
    decide (present → recordByte m (at' + 1) ≤ 7 ∨ recordByte m (at' + 1) = 15),
    decide (present → 500 ≤ recordWord m (at' + 2) ∧ recordWord m (at' + 2) ≤ 1500),
    decide (present → recordByte m (at' + 4) ≤ 1) ]

/-- The checks of all seventy fields, in field order. -/
def recordChecks (m : Memory) : List Bool :=
  stationFieldChecks m ++ (StringIdx.all.map (stringFieldChecks m)).flatten

/-- The number of the first check that fails, counted from `n`; 0 if none does. -/
def firstFailure (n : Nat) : List Bool → Nat
  | [] => 0
  | ok :: rest => if ok then firstFailure (n + 1) rest else n

/-- The offending field of the record in the store; 0 when it loads (R175). -/
def offendingField (m : Memory) : Nat := firstFailure 1 (recordChecks m)

/-- A commissioning record in which every field passes, no string is present and no field asks anything of another page: the
station fields at their least values, and for each string a weight and an action that pass. -/
def lenientRecord : List Byte :=
  [0x3C, 0x12, 1, 0, 0, 50, 0, 50, 0, 50, 2, 2, 0, 10, 0, 50, 1, 0xF4, 0, 100, 0, 50, 1, 0, 40, 1, 0, 1, 0, 0, 0, 0]
    ++ (List.replicate 12 ([0, 0, 1, 0xF4, 0] : List Byte)).flatten

/-- A page of the commissioning record fails the load's check whatever the other page holds: it fails beside a page that asks
nothing of it. -/
def recordPageBad (m : Memory) (page : Nat) : Bool :=
  let other := 1 - page
  offendingField (Memory.programPage m other (lenientRecord.drop (64 * other))) != 0

/-- The settings of one string as the record states them. -/
def stringSettingsOf (m : Memory) (i : StringIdx) : StringSettings :=
  let at' := 32 + 5 * i.val
  { present := decide (recordByte m at' = 1)
    group := recordByte m (at' + 1)
    weight := recordWord m (at' + 2)
    action := if recordByte m (at' + 4) = 1 then .reportOnly else .isolate }

/-- The settings of the record in the store (R184). -/
def settingsOf (m : Memory) : Settings :=
  { station := recordByte m 2, feeder := recordByte m 3, sampleInterval := recordWord m 4
    guardLow := recordWord m 6, guardHigh := recordWord m 8
    persistence := recordByte m 10, minContributors := recordByte m 11
    darkFloor := recordWord m 12, reverseLimit := recordWord m 14, overcurrentLimit := recordWord m 16
    arcThreshold := recordWord m 18, contestWindow := recordWord m 20
    rampSteps := recordByte m 22, voltageWindow := recordWord m 23
    retryHold := recordByte m 25, retryBudget := recordByte m 26, goodRun := recordByte m 27
    operators := [recordByte m 28, recordByte m 29, recordByte m 30, recordByte m 31]
    strings := Vector.ofFn (stringSettingsOf m) }

/-- The trim pair at byte `k` of the factory page, or the neutral pair where either trim is out of range (R6). -/
def trimAt (m : Memory) (k : Nat) : Trim :=
  let offset := (Memory.read m (192 + k)).toInt
  let gain := word16 (Memory.read m (192 + k + 1)) (Memory.read m (192 + k + 2))
  if -64 ≤ offset ∧ offset ≤ 63 ∧ 960 ≤ gain ∧ gain ≤ 1088 then ⟨offset, gain, false⟩ else Trim.neutral

/-- The trims of the twelve string channels: channel n at bytes 3(n - 1) of the factory page. -/
def trimsOf (m : Memory) : PerString Trim := Vector.ofFn fun i => trimAt m (3 * i.val)

/-- The trims of the box total channel: bytes 36 to 38. -/
def totalTrimOf (m : Memory) : Trim := trimAt m 36

end Sys2Proof.Machine
end

