-- ==== Sys2Proof/Machine/Store.lean ====
section
/-! DEFINITION. The Nonvolatile store's writes (R150, R176): beginning, completing and cutting off a write, and the mask changes
that the Hold manager hands it. -/

namespace Sys2Proof.Machine

/-- The pages that a write concerns (R176). -/
def WriteKind.pages (page : Nat) : WriteKind → List Nat
  | .lockoutPage => [2]
  | .sealing => [2]
  | .program => [page]
  | .erase => [0, 1, 2]

/-- The duration of a write in milliseconds (R176). -/
def WriteKind.duration : WriteKind → Nat
  | .lockoutPage => 6
  | .sealing => 6
  | .program => 6
  | .erase => 12

/-- Begin a write: its pages are erased first, and the completion comes after its duration. -/
def beginWrite (kind : WriteKind) (page : Nat) (content : List Byte) (answerOwed : Bool) (s : State) : State :=
  s.withNvs { s.nvs with
    store := (kind.pages page).foldl Memory.erasePage s.nvs.store
    write := some ⟨kind, page, content, s.nowMs + ms kind.duration, answerOwed⟩ }

/-- Begin a lockout page write with the masks as they stand (R150). -/
def beginLockoutWrite (s : State) : State :=
  beginWrite .lockoutPage 2 (lockoutPageBytes s.lockoutMask s.manualMask) false s

/-- A mask change arrives: a write begins, or the pending flag is set (R150, R176). -/
def maskChange (s : State) : State :=
  match s.nvs.write with
  | none => beginLockoutWrite s
  | some _ => s.withNvs { s.nvs with pendingMask := true }

/-- Carry out an action of the Hold manager, and hand the NVS a mask change if the action changed the LOCKOUT or the MANUAL
mask (R150). -/
def withMaskChange (act : State → State) (s : State) : State :=
  let t := act s
  if t.lockoutMask = s.lockoutMask ∧ t.manualMask = s.manualMask then t else maskChange t

/-- The store after a write of a kind has programmed its content. -/
def programmed (w : Write) (m : Memory) : Memory :=
  match w.kind with
  | .erase => m
  | .lockoutPage => Memory.programPage m 2 w.content
  | .sealing => Memory.programPage m 2 w.content
  | .program => Memory.programPage m w.page w.content

/-- The seal after a write of a kind has completed (R180). -/
def sealAfter (w : Write) (sealSet : Bool) : Bool :=
  match w.kind with
  | .erase => false
  | .sealing => true
  | .lockoutPage => sealSet
  | .program => sealSet

/-- A write completes: its content is programmed, and a pending mask change begins a lockout page write, or the state becomes
IDLE (R150, R176). -/
def finishWrite (w : Write) (s : State) : State :=
  let t := s.withNvs { s.nvs with
    store := programmed w s.nvs.store
    sealSet := sealAfter w s.nvs.sealSet
    write := none
    pendingMask := false }
  if s.nvs.pendingMask then beginLockoutWrite t else t

/-- The write in flight, if it is of a kind and its completion has been reached. -/
def writeDue (kind : WriteKind) (s : State) : Option Write :=
  match s.nvs.write with
  | none => none
  | some w => if w.kind = kind ∧ reached s.nowMs w.done = true then some w else none

/-- A page filled with free bytes, as a write cut off by a reset may leave it (assumption log 10). -/
def freePage (cuts page : Nat) (m : Memory) : Memory :=
  Memory.programPage m page ((List.range 64).map fun k => Config.freeCutByte cuts (64 * page + k))

/-- A page fails the load's check by itself: a lockout page is not good (R151), a commissioning page makes the record fail
whatever the other page holds (R176). -/
def pageBad (m : Memory) (page : Nat) : Bool := if page = 2 then !lockoutPageGood m else recordPageBad m page

/-- A page that a reset cut off: it holds free bytes that fail the load's check, or is left erased where those would pass. -/
def cutPage (cuts : Nat) (m : Memory) (page : Nat) : Memory :=
  let freed := freePage cuts page m
  if pageBad freed page then freed else Memory.erasePage m page

/-- A reset cuts off a write in progress: each page it concerns is left erased or partly programmed (R176). -/
def cutOff (n : Nvs) : Nvs :=
  match n.write with
  | none => n
  | some w => { n with store := (w.kind.pages w.page).foldl (cutPage n.cuts) n.store, write := none, cuts := n.cuts + 1 }

end Sys2Proof.Machine
end

