-- ==== Sys2Proof/Machine/Sequencer.lean ====
section
/-! DEFINITION. The String path sequencer's operations (chapter 7): ramps, path changes and their notices, open demands and the
close permission. The box trip line. -/

namespace Sys2Proof.Machine

/-! ### Ramp arithmetic (R119) -/

/-- The increment of a ramp of `steps` steps. -/
def rampIncrement (steps : Nat) : Nat := 255 / steps

/-- The steps remaining at the start of a ramp down from a level: the level divided by the increment and rounded up, but no more
than the step count and no less than 1. -/
def rampDownSteps (level steps : Nat) : Nat :=
  max 1 (min steps ((level + rampIncrement steps - 1) / rampIncrement steps))

/-- One step down, of a ramp with a step count and steps remaining. -/
def stepDown (level steps left : Nat) : Nat := if left = 1 then 0 else level - rampIncrement steps

/-- One step up. -/
def stepUp (level steps left : Nat) : Nat := if left = 1 then 255 else level + rampIncrement steps

/-! ### Path changes and their notices (R135) -/

/-- The window accumulator takes a path change notice: the closed-throughout flag is cleared on leaving CLOSED (R11), and the
path-change mark is set (R12). -/
def notePathWac (i : StringIdx) (old : PathState) (s : State) : State :=
  s.withWac { s.wac with
    pathChanged := true
    closedThroughout := if old = .closed then s.wac.closedThroughout.set i false else s.wac.closedThroughout }

/-- The Hold manager takes a path change notice: entry into CLOSED sets closed-since, a departure makes it absent (R144). -/
def notePathHold (i : StringIdx) (old new : PathState) (s : State) : State :=
  if new = .closed then s.setHold i { s.hold i with closedSince := some s.nowMs }
  else if old = .closed then s.setHold i { s.hold i with closedSince := none }
  else s

/-- Write a string's path part, and give the notices of a change of path state (R135). The window accumulator and the Hold manager take
them in the step of the change (assumption log 37). -/
def changePath (i : StringIdx) (p : Path) (s : State) : State :=
  let old := (s.path i).state
  let t := s.setPath i p
  if old = p.state then t else notePathHold i old p.state (notePathWac i old t)

/-! ### Open demands (R120 to R134) -/

/-- A string leaves CLOSED or CLOSING for an isolation: it enters OPENING, and its ramp is worked out from a level (R121, R134). -/
def Path.beginOpening (now : Ms) (reason : Reason) (steps level : Nat) (p : Path) : Path :=
  { p with
    state := .opening
    stepCount := some steps
    stepsLeft := some (rampDownSteps level steps)
    deadline := some (now + ms 2)
    reason := some reason
    isolationStart := some now }

/-- The path part after an open demand with a reason and a step count, in every path state. -/
def Path.demanded (now : Ms) (reason : Reason) (steps : Nat) (p : Path) : Path :=
  match p.state with
  | .closed => p.beginOpening now reason steps 255
  | .closing => p.beginOpening now reason steps p.level
  | .making =>
    { p with state := .parting, deadline := some (now + ms 30), reason := some reason, isolationStart := some now }
  | .opening => if steps = 1 ∧ p.stepsLeft ≠ some 1 then { p with stepCount := some 1, stepsLeft := some 1 } else p
  | .confirming => p
  | .parting => p
  | .isolated => p
  | .stuck => p

/-- An open demand arrives at a string's sequencer (R120). -/
def openDemand (i : StringIdx) (reason : Reason) (steps : Nat) (s : State) : State :=
  changePath i ((s.path i).demanded s.nowMs reason steps) s

/-! ### The close permission (R130) and the zero band (R124, R126) -/

/-- A close permission arrives: it is taken only in ISOLATED with an empty hold set. -/
def closePermission (i : StringIdx) (s : State) : State :=
  if (s.path i).state = .isolated ∧ (s.hold i).empty = true then
    changePath i { s.path i with state := .making, deadline := some (s.nowMs + ms 30), isolationStart := none } s
  else s

/-- A string's sequencer takes its protection sample: in CONFIRMING or STUCK a sample in the zero band moves the string to
PARTING and commands its relay open. -/
def zeroBandSample (i : StringIdx) (s : State) : State :=
  let p := s.path i
  if (p.state = .confirming ∨ p.state = .stuck) ∧ inZeroBand s.sfe.currents[i] = true then
    changePath i { p with state := .parting, deadline := some (s.nowMs + ms 30) } s
  else s

/-! ### The box trip line (R136, R137) -/

/-- Set the unlocated-arc latch, which asserts the box trip line. Setting a latch that is already set changes nothing (R115). -/
def setLatch (s : State) : State :=
  if s.acu.latch then s else (s.withAcu { s.acu with latch := true }).withBoxTrip true

/-- A trip clear: the line drops if no string is STUCK, none has switch suspect and the latch is cleared. -/
def tripClear (s : State) : State :=
  if s.anyStuck = false ∧ s.anySuspect = false ∧ s.acu.latch = false then s.withBoxTrip false else s

end Sys2Proof.Machine
end

