-- ==== Sys2Proof/Machine/Holds.lean ====
section
/-! DEFINITION. The Hold manager's operations (chapter 8): holds, hold consequences, close considerations, releases, the good run
and the shutdown line. -/

namespace Sys2Proof.Machine

/-! ### Adding holds: any hold but VOLTAGE_WAIT removes VOLTAGE_WAIT (R143) -/

def Hold.addLockout (h : Hold) : Hold := { h with lockout := true, voltageRecheck := none }
def Hold.addManual (h : Hold) : Hold := { h with manual := true, voltageRecheck := none }
def Hold.addShutdown (h : Hold) : Hold := { h with shutdown := true, voltageRecheck := none }
def Hold.addRetry (until' : Ms) (h : Hold) : Hold := { h with retryUntil := some until', voltageRecheck := none }
def Hold.addStartup (until' : Ms) (h : Hold) : Hold := { h with startupUntil := some until', voltageRecheck := none }

/-- Change the hold part of every present string in ascending index. -/
def forPresent (f : StringIdx → Hold → Hold) (s : State) : State :=
  s.withHld { s.hld with strings := Vector.ofFn fun i => if s.present i then f i s.hld.strings[i] else s.hld.strings[i] }

/-! ### Hold consequences (R140) -/

/-- The hold consequences of a declaration (R92). -/
inductive Consequence where
  | retryOrLockout
  | lockout
  | lockoutSuspect
  | nothing
deriving DecidableEq, Repr

/-- The hold part after a consequence. -/
def Hold.consequence (c : Settings) (now : Ms) (k : Consequence) (h : Hold) : Hold :=
  match k with
  | .retryOrLockout =>
    if h.retryCount < c.retryBudget then
      { h.addRetry (now + ms (60000 * c.retryHold)) with retryCount := h.retryCount + 1 }
    else h.addLockout
  | .lockout => h.addLockout
  | .lockoutSuspect => { h.addLockout with suspect := true }
  | .nothing => h

/-- The Hold manager takes a hold consequence for a string. It applies none to a string that is not present (R139). -/
def holdConsequence (c : Settings) (i : StringIdx) (k : Consequence) (s : State) : State :=
  if s.present i then withMaskChange (fun t => t.setHold i ((t.hold i).consequence c t.nowMs k)) s else s

/-! ### Close consideration (R142) and the voltage check (R129) -/

/-- The voltage check of a string passes. -/
def voltageOk (c : Settings) (i : StringIdx) (s : State) : Bool :=
  decide (((s.sfe.voltages[i] : Int) - (s.sfe.bus : Int)).natAbs ≤ c.voltageWindow)

/-- A close consideration: for a present string, ISOLATED with an empty hold set, the voltage check hands a close permission or
adds VOLTAGE_WAIT for 60 s. The sequencer takes the permission in the step of the consideration (assumption log 38). -/
def considerClose (i : StringIdx) (s : State) : State :=
  match s.settings with
  | none => s
  | some c =>
    if c.strings[i].present = true ∧ (s.path i).state = .isolated ∧ (s.hold i).empty = true then
      if voltageOk c i s then closePermission i s
      else s.setHold i { s.hold i with voltageRecheck := some (s.nowMs + ms 60000) }
    else s

/-! ### Releases (R146) -/

/-- The hold part after a release: SHUTDOWN and STARTUP stay. -/
def Hold.released (h : Hold) : Hold :=
  { h with lockout := false, manual := false, retryUntil := none, voltageRecheck := none, retryCount := 0, suspect := false }

/-- The releases of one RELEASE request, taken as one arrival, with one mask change. -/
def releaseStrings (l : List StringIdx) (s : State) : State :=
  let released := withMaskChange (fun t => l.foldl (fun u i => u.setHold i (u.hold i).released) t) s
  l.foldl (fun t i => considerClose i t) released

/-- The MANUAL holds and open demands of one ISOLATE request, with one mask change (R145). -/
def isolateStrings (c : Settings) (l : List StringIdx) (s : State) : State :=
  let held := withMaskChange (fun t => l.foldl (fun u i => u.setHold i (u.hold i).addManual) t) s
  l.foldl (fun t i => openDemand i .manual c.rampSteps t) held

/-! ### The good run (R144) -/

/-- The hold part of a CLOSED string after the examination at a window close. -/
def Hold.examined (c : Settings) (now : Ms) (strikes : Nat) (h : Hold) : Hold :=
  if 0 < strikes then { h with closedSince := some now }
  else match h.closedSince with
    | none => h
    | some t => if 3600000 * c.goodRun ≤ since now t then { h with retryCount := 0 } else h

/-- The Hold manager takes a window close. -/
def goodRun (c : Settings) (s : State) : State :=
  forPresent (fun i h => if (s.path i).state = .closed then h.examined c s.nowMs (s.adjOf i).strikes else h) s

/-! ### Start-up stagger (R148, R149) -/

/-- The moment at which a string's STARTUP hold ends: 5 s, and 2 s more for each index. -/
def staggerEnd (now : Ms) (i : StringIdx) : Ms := now + ms (5000 + 2000 * i.val)

end Sys2Proof.Machine
end

