-- ==== Sys2Proof/Machine/FaultLog.lean ====
section
/-! DEFINITION. The Fault log and the declarations it records (chapter 5, 5.4, and chapter 9). -/

namespace Sys2Proof.Machine

/-- A declaration (R91). `demand` is the number of ramp steps of its open demand, where it has one; `isolationStart` is carried
by SWITCH_STUCK alone (R125). -/
structure Declaration where
  string : StringIdx
  cause : Cause
  detail : Int
  reference : Option Int
  contributors : Option Nat
  outcome : FaultOutcome
  demand : Option Nat
  consequence : Consequence
  isolationStart : Option Ms
deriving DecidableEq, Repr

/-- The sequence number after another: from 65535 it goes to 1 (R154). -/
def succSeq (n : Nat) : Nat := if n = 65535 then 1 else n + 1

/-- Remove the oldest acknowledged record, or else the oldest record (R156). -/
def removeOldest (l : List FaultRecord) : List FaultRecord :=
  if l.any (fun r => r.ackBy.isSome) then l.eraseP fun r => r.ackBy.isSome else l.drop 1

/-- Make room for a record in a full log, counting the loss of an unacknowledged one (R154, R156). -/
def Flg.makeRoom (f : Flg) : Flg :=
  if 32 ≤ f.records.length then
    { f with
      records := removeOldest f.records
      lost := if f.records.any (fun r => r.ackBy.isSome) then f.lost else satSucc 255 f.lost }
  else f

/-- The record of a declaration (R154). -/
def recordOf (d : Declaration) (seq seconds : Nat) (now : Ms) : FaultRecord :=
  { seq, string := d.string, cause := d.cause, seconds, detail := d.detail, reference := d.reference
    contributors := d.contributors, outcome := d.outcome, ackBy := none, declared := some now }

/-- Make one record (R154). -/
def Flg.append (d : Declaration) (seconds : Nat) (now : Ms) (f : Flg) : Flg :=
  let g := f.makeRoom
  { g with records := g.records ++ [recordOf d g.nextSeq seconds now], nextSeq := succSeq g.nextSeq }

/-- Whether a record belongs to an isolation of a string that began at `start` and failed now (R157). -/
def FaultRecord.ofFailed (i : StringIdx) (start now : Ms) (seconds : Nat) (r : FaultRecord) : Bool :=
  decide (r.string = i) && decide (r.outcome = .isolated) &&
    (match r.declared with
      | none => false
      | some t => decide (since now t ≤ since now start)) &&
    (decide (r.seconds = seconds) || decide (r.seconds + 1 = seconds))

/-- Change to ISOLATION_FAILED the outcome of every record of the failed isolation (R157). -/
def Flg.failIsolation (i : StringIdx) (start now : Ms) (seconds : Nat) (f : Flg) : Flg :=
  { f with records := f.records.map fun r =>
      if r.ofFailed i start now seconds then { r with outcome := .isolationFailed } else r }

/-- The Fault log takes a declaration (R154, R157). -/
def recordFault (d : Declaration) (s : State) : State :=
  let f := s.flg.append d s.seconds s.nowMs
  s.withFlg (match d.isolationStart with
    | none => f
    | some start => f.failIsolation d.string start s.nowMs s.seconds)

/-- The open demand of a declaration sets out for the string's sequencer (R91, R94). -/
def sendDemand (d : Declaration) (s : State) : State :=
  match d.demand with
  | none => s
  | some steps => s.withDemands (s.demands ++ [⟨d.string, .fault d.cause, steps⟩])

/-- A declaration is raised: the Fault log and the Hold manager take it, and its open demand sets out for the string's sequencer
(R91; assumption log 19). -/
def declareFault (c : Settings) (d : Declaration) (s : State) : State :=
  sendDemand d (holdConsequence c d.string d.consequence (recordFault d s))

/-- The declaration of a performance fault (R84, R92, R93). -/
def performanceFault (c : Settings) (i : StringIdx) (deviation reference : Int) (contributors : Nat) : Declaration :=
  let report := decide (c.strings[i].action = .reportOnly)
  { string := i, cause := if deviation < 0 then .lowOutput else .highOutput, detail := deviation
    reference := some reference, contributors := some contributors
    outcome := if report then .reported else .isolated
    demand := if report then none else some c.rampSteps
    consequence := if report then .nothing else .retryOrLockout
    isolationStart := none }

/-- The declaration of a fast fault (R89, R92, R93). -/
def fastFault (c : Settings) (i : StringIdx) (cause : Cause) (peak : Int) : Declaration :=
  { string := i, cause, detail := peak, reference := none, contributors := none, outcome := .isolated
    demand := some c.rampSteps, consequence := .lockout, isolationStart := none }

/-- The declaration of an arc (R108, R92, R93). -/
def arcFault (i : StringIdx) (score : Nat) : Declaration :=
  { string := i, cause := .arc, detail := score, reference := none, contributors := none, outcome := .isolated
    demand := some 1, consequence := .lockout, isolationStart := none }

/-- The declaration of a stuck switch (R125, R92, R93). -/
def stuckFault (i : StringIdx) (current : Int) (start : Option Ms) : Declaration :=
  { string := i, cause := .switchStuck, detail := current, reference := none, contributors := none
    outcome := .isolationFailed, demand := none, consequence := .lockoutSuspect, isolationStart := start }

/-! ### Acknowledgement and reads (R159, R160) -/

/-- Acknowledge every record up to and including the one numbered `seq`; a record already acknowledged keeps its station. -/
def acknowledgeUpTo (seq station : Nat) : List FaultRecord → List FaultRecord
  | [] => []
  | r :: rest =>
    let r' := if r.ackBy.isNone then { r with ackBy := some station } else r
    if r.seq = seq then r' :: rest else r' :: acknowledgeUpTo seq station rest

/-- Whether a sequence number is in the log. -/
def Flg.has (f : Flg) (seq : Nat) : Bool := f.records.any fun r => decide (r.seq = seq)

/-- Whether a sequence number is that of the newest record. -/
def Flg.isNewest (f : Flg) (seq : Nat) : Bool :=
  match f.records.getLast? with
  | none => false
  | some r => decide (r.seq = seq)

/-- An acknowledgement that finds its record (R159). -/
def Flg.acknowledge (seq station : Nat) (f : Flg) : Flg :=
  { f with
    records := acknowledgeUpTo seq station f.records
    lost := if f.isNewest seq then 0 else f.lost }

/-- Whether the newest record of a string is unacknowledged (R160). -/
def Flg.newestUnacknowledged (f : Flg) (i : StringIdx) : Bool :=
  match (f.records.filter fun r => decide (r.string = i)).getLast? with
  | none => false
  | some r => r.ackBy.isNone

/-- The records from a starting sequence number on, up to a maximum count; 0 is the oldest record, and none where the number is
not in the log (R160). -/
def Flg.readFrom (f : Flg) (start count : Nat) : Option (List FaultRecord) :=
  if start = 0 then some (f.records.take count)
  else if f.has start then some ((f.records.dropWhile fun r => decide (r.seq ≠ start)).take count)
  else none

end Sys2Proof.Machine
end

