-- ==== Sys2Proof/Machine/Bus.lean ====
section
/-! DEFINITION. The Array bus unit's transmitter (sections 2.6 and 2.7): the transmit queue, deferrals, transmission and collision.
Times here are microseconds. -/

namespace Sys2Proof.Machine

/-- Raise one count of the tally, which saturates at 65535 (R33). -/
def Tally.bumpValid (t : Tally) : Tally := { t with valid := satSucc 65535 t.valid }
def Tally.bumpCrc (t : Tally) : Tally := { t with crcDiscard := satSucc 65535 t.crcDiscard }
def Tally.bumpByte (t : Tally) : Tally := { t with byteDiscard := satSucc 65535 t.byteDiscard }
def Tally.bumpHeader (t : Tally) : Tally := { t with headerIgnored := satSucc 65535 t.headerIgnored }
def Tally.bumpCollisions (t : Tally) : Tally := { t with collisions := satSucc 65535 t.collisions }
def Tally.bumpDropped (t : Tally) : Tally := { t with txDropped := satSucc 65535 t.txDropped }
def Tally.bumpSuperseded (t : Tally) : Tally := { t with repliesSuperseded := satSucc 65535 t.repliesSuperseded }

/-- An entry is urgent when it is an ARC_CLAIM (R34). -/
def TxEntry.urgent (e : TxEntry) : Bool := decide (e.kind = .arcClaim)

/-- The limit of attempts of an entry's class (R42). -/
def TxEntry.limit (e : TxEntry) : Nat := if e.urgent then 16 else 8

/-- A new entry: attempts 0, not in flight (R34). -/
def TxEntry.fresh (kind : TxKind) (dest : Nat) (body : List Byte) : TxEntry := ⟨kind, dest, body, 0, false, false⟩

/-! ### Deferrals (R39, R40) -/

/-- The slots of a draw: 0 to 3 for an urgent head, 4 to 19 for a normal one. The number drawn is a free value. -/
def drawSlots (urgent : Bool) (n : Nat) : Nat := if urgent then Config.freeDraw n % 4 else 4 + Config.freeDraw n % 16

/-- The moment at which a deferral expires: slots of 200 microseconds. -/
def Deferral.expiry (d : Deferral) : Nat := d.start + 200 * d.slots

/-- Begin transmitting the head entry (R41). -/
def Abu.startSending (c : Settings) (a : Abu) : Abu :=
  match a.queue with
  | [] => a
  | e :: rest =>
    { a with
      tx := .sending, deferral := none, frame := e.frame c, readBack := 0
      queue := { e with inFlight := true, replaced := false } :: rest }

/-- A deferral with an urgent draw, counted from a start: the transmission begins at once if it has already expired. -/
def Abu.deferUrgent (c : Settings) (start now : Nat) (a : Abu) : Abu :=
  let d : Deferral := ⟨start, drawSlots true a.draws⟩
  let b := { a with tx := .deferring, deferral := some d, draws := a.draws + 1 }
  if d.expiry ≤ now then b.startSending c else b

/-- A deferral begins at this moment, drawn in the range of the head's class; with an empty queue none begins (R39). -/
def Abu.beginDeferral (c : Settings) (now : Nat) (a : Abu) : Abu :=
  match a.queue with
  | [] => a
  | e :: _ =>
    if e.urgent then a.deferUrgent c now now
    else { a with tx := .deferring, deferral := some ⟨now, drawSlots false a.draws⟩, draws := a.draws + 1 }

/-- A new entry has been taken: an empty transmitter starts to defer on a quiet line or waits for one, and a running normal
deferral gives way to an urgent one from the same start (R39, R40). -/
def Abu.afterTaking (c : Settings) (now : Nat) (urgent : Bool) (a : Abu) : Abu :=
  match a.tx with
  | .empty => if a.rx = .ready then a.beginDeferral c now else { a with tx := .waiting }
  | .waiting => a
  | .deferring =>
    match a.deferral with
    | none => a
    | some d => if urgent then a.deferUrgent c d.start now else a
  | .sending => a

/-! ### Offers to the transmit queue (R34 to R37) -/

/-- Place a new entry: an urgent one before, a normal one after all others. -/
def placeEntry (e : TxEntry) (q : List TxEntry) : List TxEntry := if e.urgent then e :: q else q ++ [e]

/-- Offer a new entry under the full-queue rule (R37). -/
def Abu.offerNew (c : Settings) (now : Nat) (e : TxEntry) (a : Abu) : Abu :=
  if 8 ≤ a.queue.length then
    if e.urgent then
      { a with queue := placeEntry e a.queue.dropLast, tally := a.tally.bumpDropped }.afterTaking c now true
    else { a with tally := a.tally.bumpDropped }
  else { a with queue := placeEntry e a.queue }.afterTaking c now e.urgent

/-- Replace the body of the queued entry of a kind in place (R35, R36). -/
def replaceBody (kind : TxKind) (body : List Byte) (q : List TxEntry) : List TxEntry :=
  q.map fun e => if e.kind = kind then { e with body, attempts := 0, replaced := e.inFlight } else e

/-- Offer a DIGEST or an ARC_CLAIM, of which the queue holds at most one (R35, R36). -/
def Abu.offerSingle (c : Settings) (now : Nat) (kind : TxKind) (body : List Byte) (a : Abu) : Abu :=
  if a.queue.any (fun e => decide (e.kind = kind)) then { a with queue := replaceBody kind body a.queue }
  else a.offerNew c now (TxEntry.fresh kind 0 body)

/-- Hand the ABU something to send: taken in RUN alone (R32, R43). -/
def offerToBus (offer : Settings → Nat → Abu → Abu) (s : State) : State :=
  match s.settings with
  | none => s
  | some c => if s.abu.silent then s else s.withAbu (offer c s.timeUs s.abu)

/-- The Reference unit offers a DIGEST (R35). -/
def offerDigest (body : List Byte) : State → State := offerToBus fun c now a => a.offerSingle c now .digest body

/-- The Arc contest unit offers an ARC_CLAIM (R36). -/
def offerClaim (body : List Byte) : State → State := offerToBus fun c now a => a.offerSingle c now .arcClaim body

/-- The Request handler offers a REPLY to its requester (R37). -/
def offerReply (dest : Nat) (body : List Byte) : State → State :=
  offerToBus fun c now a => a.offerNew c now (TxEntry.fresh .reply dest body)

/-- Remove the waiting reply to a requester and count REPLIES_SUPERSEDED (R38). -/
def Abu.supersede (source : Nat) (a : Abu) : Abu :=
  let waits := fun e : TxEntry => decide (e.kind = .reply) && decide (e.dest = source)
  if a.queue.any waits then
    let q := a.queue.eraseP waits
    { a with
      queue := q, tally := a.tally.bumpSuperseded
      tx := if q.isEmpty then .empty else a.tx
      deferral := if q.isEmpty then none else a.deferral }
  else a

/-! ### The end of a transmission (R28, R41, R42) -/

/-- The entry in flight after a completed transmission: kept with its new body, or removed as sent. -/
def TxEntry.completed (e : TxEntry) : Option TxEntry :=
  if e.inFlight then
    if e.replaced then some { e with attempts := 0, inFlight := false, replaced := false } else none
  else some e

/-- The entry in flight after a collision: kept with its new body, kept with one attempt more, or removed. -/
def TxEntry.collided (e : TxEntry) : Option TxEntry :=
  if e.inFlight then
    if e.replaced then some { e with attempts := 0, inFlight := false, replaced := false }
    else if e.limit ≤ e.attempts + 1 then none
    else some { e with attempts := e.attempts + 1, inFlight := false }
  else some e

/-- The transmitter leaves SENDING with a new queue: the receiver enters GAP_WAIT and the idle gap runs from now. -/
def Abu.endSending (now : Nat) (q : List TxEntry) (a : Abu) : Abu :=
  { a with
    rx := .gapWait, taken := [], lastByteEnd := now, frame := [], readBack := 0, queue := q
    tx := if q.isEmpty then .empty else .waiting }

/-- The last check byte was read back unchanged (R41). -/
def Abu.complete (now : Nat) (a : Abu) : Abu := a.endSending now (a.queue.filterMap TxEntry.completed)

/-- A read-back byte differs or has a stop error (R42). -/
def Abu.collide (now : Nat) (a : Abu) : Abu :=
  let dropped := a.queue.any fun e => e.collided.isNone
  let counted := a.tally.bumpCollisions
  { a with tally := if dropped then counted.bumpDropped else counted }.endSending now (a.queue.filterMap TxEntry.collided)

/-- A byte is read back while the part is transmitting: it is compared with the byte sent (R28, R41, R42). -/
def Abu.readBackByte (now : Nat) (b : Byte) (stopError : Bool) (a : Abu) : Abu :=
  if stopError = true ∨ a.frame[a.readBack]? ≠ some b then a.collide now
  else if a.readBack + 1 = a.frame.length then a.complete now
  else { a with readBack := a.readBack + 1, lastByteEnd := now }

/-- The deferral runs out on a quiet line (R39). -/
def Abu.deferralExpired (c : Settings) (now : Nat) (a : Abu) : Abu :=
  match a.deferral with
  | none => a
  | some d => if a.tx = .deferring ∧ a.rx = .ready ∧ d.expiry ≤ now then a.startSending c else a

end Sys2Proof.Machine
end

