-- ==== Sys2Proof/Machine/Contest.lean ====
section
/-! DEFINITION. The Arc contest unit (chapter 6): alarm run, contest record, rival list, claims. The commands of its deadlines are in
Deadlines.lean. -/

namespace Sys2Proof.Machine

/-! ### The choice of a string (R101) -/

/-- The candidate with the highest share, the lowest index among equal shares. -/
def chooseString (shares : PerString Nat) (candidate : StringIdx → Bool) : Option StringIdx :=
  StringIdx.all.foldl (fun best i =>
    if candidate i then
      match best with
      | none => some i
      | some j => if shares[j] < shares[i] then some i else some j
    else best) none

/-- The strings the ACU chooses among: present and CLOSED or CLOSING. -/
def State.arcCandidate (s : State) (i : StringIdx) : Bool := s.present i && (s.path i).connected

/-- The strings of the winning replacement: present and CLOSED (R108). -/
def State.replacementCandidate (s : State) (i : StringIdx) : Bool := s.present i && decide ((s.path i).state = .closed)

/-- The score and shares of the latest tick sample set. -/
def Sfe.peak (x : Sfe) : Peak := ⟨x.score, x.shares⟩

/-! ### The alarm (R100) -/

/-- The alarm run and run peak after a tick: a score greater than the threshold is loud. -/
def Acu.alarmTick (threshold : Nat) (p : Peak) (a : Acu) : Acu :=
  if threshold < p.score then
    { a with
      alarmRun := min 3 (a.alarmRun + 1)
      runPeak := if a.alarmRun = 0 then some p else match a.runPeak with
        | none => some p
        | some q => if q.score < p.score then some p else some q }
  else { a with alarmRun := 0, runPeak := none }

/-- The alarm stands. -/
def Acu.alarmStands (a : Acu) : Bool := decide (3 ≤ a.alarmRun)

/-! ### Rivals (R104, R106) -/

/-- Enter a rival claim as the newest entry: in place of the same station's, or of the oldest of eight. -/
def enterRival (r : Rival) (l : List Rival) : List Rival :=
  if l.any (fun q => decide (q.station = r.station)) then (l.filter fun q => decide (q.station ≠ r.station)) ++ [r]
  else if 8 ≤ l.length then l.drop 1 ++ [r]
  else l ++ [r]

/-- Compare a claim with the best rival: the greater score, and the lower station among equal scores, stands. -/
def compareRival (station score : Nat) (best : Option BestRival) : Option BestRival :=
  match best with
  | none => some ⟨station, score⟩
  | some b => if b.score < score ∨ (score = b.score ∧ station < b.station) then some ⟨station, score⟩ else some b

/-- Whether a rival beats the own claim (R106). -/
def BestRival.beats (own : Nat) (p : Peak) (r : BestRival) : Bool :=
  decide (p.score < r.score) || (decide (r.score = p.score) && decide (r.station < own))

/-- A rival claim reaches the ACU: it is listed, and in CONTEST compared (R103, R106). -/
def Acu.rivalClaim (station score : Nat) (now : Ms) (a : Acu) : Acu :=
  { a with
    rivals := enterRival ⟨station, score, now⟩ a.rivals
    contest := match a.contest with
      | .contest round own chosen windowEnd best => .contest round own chosen windowEnd (compareRival station score best)
      | .idle => .idle
      | .yielded round resolution quiet => .yielded round resolution quiet
      | .settle t => .settle t }

/-- An ARC_CLAIM is delivered to the ACU: discarded, set aside, or taken as a rival claim (R103). -/
def takeClaim (c : Settings) (t : Telegram) (s : State) : State :=
  match parseClaim t.body with
  | none => s
  | some claim => if t.feeder = c.feeder then s.withAcu (s.acu.rivalClaim t.source claim.score s.nowMs) else s

/-! ### Opening a contest (R105, R107, R111) -/

/-- Open a contest in a round with a peak: its string is chosen, its CLAIMING claim is offered and the rival list is compared;
with no string to choose, the latch is set and the record is IDLE. -/
def openContest (c : Settings) (round : Nat) (p : Peak) (s : State) : State :=
  match chooseString p.shares s.arcCandidate with
  | none => setLatch (s.withAcu { s.acu with contest := .idle })
  | some i =>
    let best := s.acu.rivals.foldl (fun b r => compareRival r.station r.score b) none
    offerClaim (claimBody round 1 p.score i)
      (s.withAcu { s.acu with contest := .contest round p i (s.nowMs + ms c.contestWindow) best })

/-- In CONTEST, a tick louder than the own peak raises it and chooses again (R108). -/
def raisePeak (own : Peak) (chosen : StringIdx) (s : State) : Peak × StringIdx :=
  if own.score < s.sfe.score then (s.sfe.peak, (chooseString s.sfe.shares s.arcCandidate).getD chosen) else (own, chosen)

/-- The quiet-since time after a tick in YIELDED (R109). -/
def quietAfter (loud : Bool) (now : Ms) (quiet : Option Ms) : Option Ms :=
  if loud then none else match quiet with
    | none => some now
    | some t => some t

/-- The ACU takes a tick sample set (R100, R105, R108, R109, R110, R112). -/
def arcTick (c : Settings) (s : State) : State :=
  let a := s.acu.alarmTick c.arcThreshold s.sfe.peak
  let t := s.withAcu a
  match a.contest with
  | .idle =>
    if a.alarmStands then
      match a.runPeak with
      | none => t
      | some p => openContest c 1 p t
    else t
  | .contest round own chosen windowEnd best =>
    let raised := raisePeak own chosen t
    t.withAcu { a with contest := .contest round raised.1 raised.2 windowEnd best }
  | .yielded round resolution quiet =>
    let quiet' := quietAfter (decide (c.arcThreshold < s.sfe.score)) s.nowMs quiet
    let u := t.withAcu { a with contest := .yielded round resolution quiet' }
    if resolution = none ∧ a.alarmStands = true then openContest c 2 s.sfe.peak u else u
  | .settle _ => t

/-! ### The end of a contest window (R108) -/

/-- The string a won contest opens: the chosen string while it is CLOSED or CLOSING, else the winning replacement. -/
def winningString (own : Peak) (chosen : StringIdx) (s : State) : Option StringIdx :=
  if (s.path chosen).connected then some chosen else chooseString own.shares s.replacementCandidate

/-- The station wins: it opens a string, or sets the latch, and enters SETTLE. -/
def winContest (c : Settings) (round : Nat) (own : Peak) (chosen : StringIdx) (s : State) : State :=
  let settled := s.withAcu { s.acu with contest := .settle (s.nowMs + ms 500) }
  match winningString own chosen s with
  | none => setLatch settled
  | some i => offerClaim (claimBody round 2 own.score i) (declareFault c (arcFault i own.score) settled)

/-- Whether the best rival beats the own claim. -/
def beaten (c : Settings) (own : Peak) (best : Option BestRival) : Bool :=
  match best with
  | none => false
  | some r => r.beats c.station own

/-- The window end decides the contest. -/
def decideContest (c : Settings) (s : State) : State :=
  match s.acu.contest with
  | .contest round own chosen windowEnd best =>
    if reached s.nowMs windowEnd then
      if round = 1 ∧ beaten c own best = true then
        s.withAcu { s.acu with contest := .yielded 1 (some (s.nowMs + ms 2000)) none }
      else winContest c round own chosen s
    else s
  | .idle => s
  | .yielded _ _ _ => s
  | .settle _ => s

/-! ### After yielding and in SETTLE (R109 to R112) -/

/-- The resolution deadline: a loud latest score opens round 2, otherwise the deadline is dropped (R110). The latest set is the one formed
last, also where the contest unit has not taken its part of it yet (assumption log 33). -/
def resolve (c : Settings) (s : State) : State :=
  match s.acu.contest with
  | .yielded round (some deadline) quiet =>
    if reached s.nowMs deadline then
      if c.arcThreshold < s.sfe.score then openContest c 2 s.sfe.peak s
      else s.withAcu { s.acu with contest := .yielded round none quiet }
    else s
  | .yielded _ none _ => s
  | .idle => s
  | .contest _ _ _ _ _ => s
  | .settle _ => s

/-- The contest record after 500 ms of quiet in YIELDED (R109). -/
def Contest.afterQuiet (now : Ms) : Contest → Contest
  | .yielded round resolution (some t) => if reached now (t + ms 500) then .idle else .yielded round resolution (some t)
  | .yielded round resolution none => .yielded round resolution none
  | .idle => .idle
  | .contest round own chosen windowEnd best => .contest round own chosen windowEnd best
  | .settle t => .settle t

/-- The contest record after its settle end (R112). -/
def Contest.afterSettle (now : Ms) : Contest → Contest
  | .settle t => if reached now t then .idle else .settle t
  | .idle => .idle
  | .contest round own chosen windowEnd best => .contest round own chosen windowEnd best
  | .yielded round resolution quiet => .yielded round resolution quiet

/-- The rival list once the entry of a station has expired: at arrival plus the contest window (R104). -/
def expireRival (c : Settings) (now : Ms) (station : Nat) (l : List Rival) : List Rival :=
  l.filter fun r => !(decide (r.station = station) && reached now (r.arrival + ms c.contestWindow))

end Sys2Proof.Machine
end

