-- ==== Sys2Proof/Machine/Peers.lean ====
section
/-! DEFINITION. The Peer table (chapter 3): heard notices, digest arrivals, admission, ageing and the read at a window close. -/

namespace Sys2Proof.Machine

/-- The peer-overflow count goes up by one and saturates (R44). -/
def Ptb.raiseOverflow (p : Ptb) : Ptb := { p with overflow := satSucc 65535 p.overflow }

/-- A heard notice refreshes the last-heard time of a known station and nothing else (R46). -/
def Ptb.heard (station : Nat) (now : Ms) (p : Ptb) : Ptb :=
  { p with entries := p.entries.map fun e => if e.station = station then { e with lastHeard := now } else e }

/-- Whether the table holds a station. -/
def Ptb.knows (p : Ptb) (station : Nat) : Bool := p.entries.any fun e => decide (e.station = station)

/-- Place an entry in ascending station number. -/
def insertPeer (e : PeerEntry) : List PeerEntry → List PeerEntry
  | [] => [e]
  | q :: l => if e.station < q.station then e :: q :: l else q :: insertPeer e l

/-- The candidate of R50: the entry heard longest ago, the lower station number among equals. The list is ascending. -/
def oldestHeard (now : Ms) : List PeerEntry → Option PeerEntry
  | [] => none
  | e :: l =>
    match oldestHeard now l with
    | none => some e
    | some q => if since now e.lastHeard < since now q.lastHeard then some q else some e

/-- The entry that a checked digest makes (R48, R49). -/
def peerOf (station feeder : Nat) (now : Ms) (groups : List GroupEntry) : PeerEntry := ⟨station, feeder, now, some now, groups⟩

/-- A checked DIGEST updates, admits or overflows (R48 to R50). -/
def Ptb.enroll (c : Settings) (e : PeerEntry) (now : Ms) (p : Ptb) : Ptb :=
  if p.knows e.station then { p with entries := p.entries.map fun q => if q.station = e.station then e else q }
  else if p.entries.length < 24 then { p with entries := insertPeer e p.entries }
  else match oldestHeard now p.entries with
    | none => p
    | some q =>
      if q.fresh c now then p.raiseOverflow
      else { p with entries := insertPeer e (p.entries.filter fun r => decide (r.station ≠ q.station)) }

/-- A DIGEST is delivered to the peer table (R47). -/
def takeDigest (c : Settings) (t : Telegram) (s : State) : State :=
  match parseDigest t.feeder t.body with
  | none => s
  | some groups => s.withPtb (s.ptb.enroll c (peerOf t.source t.feeder s.nowMs groups) s.nowMs)

/-- One entry at a window close: removed, made stale, or left (R51). -/
def PeerEntry.aged (c : Settings) (now : Ms) (e : PeerEntry) : Option PeerEntry :=
  if 4 * c.windowLength < since now e.lastHeard then none
  else if e.fresh c now then some e
  else some { e with lastDigest := none }

/-- The table ages its entries at a window close (R51). -/
def Ptb.age (c : Settings) (now : Ms) (p : Ptb) : Ptb := { p with entries := p.entries.filterMap (PeerEntry.aged c now) }

/-- The median that an entry supplies for a group, if it supplies one (R52). -/
def PeerEntry.supplies (c : Settings) (now : Ms) (g : Nat) (e : PeerEntry) : Option Int :=
  if e.fresh c now then
    match e.groups.find? fun q => decide (q.group = g) with
    | none => none
    | some q => if q.valid = true ∧ 1 ≤ q.count then q.median else none
  else none

/-- The peer medians of a group, in ascending station number (R52). -/
def Ptb.medians (c : Settings) (now : Ms) (g : Nat) (p : Ptb) : List Int := p.entries.filterMap (PeerEntry.supplies c now g)

end Sys2Proof.Machine
end

