-- ==== Sys2Proof/Machine/Reference.lean ====
section
/-! DEFINITION. The Reference unit's window evaluation (chapter 4), the own digest (R54), and the Adjudicator's handling of the
verdict set (R83, R84). -/

namespace Sys2Proof.Machine

/-! ### Normalization and contributors (R61 to R65) -/

/-- The normalized value of a string (R61). -/
def normalizedValue (mean : Int) (weight : Nat) : Int := roundDiv (mean * 1000) weight

/-- The window result the Reference unit takes, and what it reads beside it (R14, R60). -/
structure WindowInput where
  config : Settings
  means : PerString Int
  closedThroughout : PerString Bool
  boxValid : Bool
  strikes : StringIdx → Nat
  peers : Nat → List Int

/-- The normalized value of a string in a window. -/
def WindowInput.normalized (w : WindowInput) (i : StringIdx) : Int := normalizedValue w.means[i] w.config.strings[i].weight

/-- A string is an own contributor of a group (R63). -/
def WindowInput.contributes (w : WindowInput) (g : Nat) (i : StringIdx) : Bool :=
  w.config.strings[i].present && decide (w.config.strings[i].group = g) && w.closedThroughout[i]
    && decide (w.strikes i = 0) && w.boxValid

/-- The own contributors' values of a group. -/
def WindowInput.ownValues (w : WindowInput) (g : Nat) : List Int :=
  (StringIdx.all.filter (w.contributes g)).map w.normalized

/-- Whether the station has a present string in a group. -/
def WindowInput.hasGroup (w : WindowInput) (g : Nat) : Bool :=
  StringIdx.all.any fun i => w.config.strings[i].present && decide (w.config.strings[i].group = g)

/-! ### References (R66 to R68) -/

/-- The group record of a contributor list. -/
def groupRecordOfList (minContributors darkFloor : Nat) (l : List Int) : GroupRecord :=
  if l = [] ∨ l.length < minContributors then ⟨l.length, none, false⟩
  else ⟨l.length, some (median l), decide (median l < darkFloor)⟩

/-- The group record of a group in a window: none for a group without a present string. -/
def WindowInput.groupRecord (w : WindowInput) (g : Nat) : Option GroupRecord :=
  if w.hasGroup g then
    some (groupRecordOfList w.config.minContributors w.config.darkFloor (w.ownValues g ++ w.peers g))
  else none

/-! ### Verdicts and deviations (R69 to R77) -/

/-- The deviation of a FULL string (R74). -/
def deviationOf (normalized reference : Int) : Int := clampInt (-1000) 1000 (((normalized - reference) * 1000).tdiv reference)

/-- The verdict of a judgement. -/
def Judgement.verdict : Judgement → Verdict
  | .full _ _ _ => .full
  | .partialWindow => .partialWindow
  | .dark => .dark
  | .held => .held

/-- The deviation of a judgement: absent unless FULL (R59). -/
def Judgement.deviation : Judgement → Option Int
  | .full d _ _ => some d
  | .partialWindow => none
  | .dark => none
  | .held => none

/-- The judgement of a string against its group record (R70, R71, R73). -/
def judge (normalized : Int) : Option GroupRecord → Judgement
  | none => .held
  | some r =>
    match r.reference with
    | none => .held
    | some ref => if r.dark then .dark else .full (deviationOf normalized ref) ref r.contributors

/-- The judgement of a present string: the first condition of R69 that holds. -/
def WindowInput.judgement (w : WindowInput) (i : StringIdx) : Judgement :=
  let group := w.config.strings[i].group
  if w.boxValid = false then .held
  else if w.closedThroughout[i] = false then (if group = 15 then .held else .partialWindow)
  else if group = 15 then .held
  else judge (w.normalized i) (w.groupRecord group)

/-- The verdict set: one entry for each present string, in ascending index (R76). -/
def WindowInput.verdicts (w : WindowInput) : List VerdictEntry :=
  (StringIdx.all.filter fun i => w.config.strings[i].present).map fun i => ⟨i, w.judgement i⟩

/-- The Reference unit's fields after the window (R77, R68). -/
def WindowInput.evaluate (w : WindowInput) (r : Rfu) : Rfu :=
  { strings := Vector.ofFn fun i =>
      if w.config.strings[i].present then
        ⟨w.normalized i, some (w.judgement i).verdict, (w.judgement i).deviation⟩
      else r.strings[i]
    groups := Vector.ofFn fun g => w.groupRecord g.val }

/-! ### The own digest (R54) -/

/-- The group entry of the own digest. -/
def WindowInput.digestEntry (w : WindowInput) (g : Nat) : GroupEntry :=
  let own := w.ownValues g
  ⟨g, own.length, if own = [] then none else some (median own), w.boxValid⟩

/-- The group list of the own digest, in ascending group order. -/
def WindowInput.digestGroups (w : WindowInput) : List GroupEntry :=
  ([0, 1, 2, 3, 4, 5, 6, 7].filter w.hasGroup).map w.digestEntry

/-! ### Strikes and performance faults (R83, R84) -/

/-- Whether a deviation is a strike: outside the guard band. -/
def isStrike (c : Settings) (d : Int) : Bool := decide (d < -(c.guardLow : Int)) || decide ((c.guardHigh : Int) < d)

/-- The Adjudicator takes one entry of the verdict set: a strike raises the count, and one that reaches P declares a performance
fault and returns the count to 0 (R83, R84). -/
def takeVerdict (c : Settings) (e : VerdictEntry) (s : State) : State :=
  let a := s.adjOf e.string
  match e.judgement with
  | .full d ref n =>
    if isStrike c d then
      if c.persistence ≤ a.strikes + 1 then
        declareFault c (performanceFault c e.string d ref n) (s.setAdj e.string { a with strikes := 0 })
      else s.setAdj e.string { a with strikes := a.strikes + 1 }
    else s.setAdj e.string { a with strikes := 0 }
  | .partialWindow => s.setAdj e.string { a with strikes := 0 }
  | .dark => s
  | .held => s

/-- The Adjudicator takes the verdict set, in ascending string index (R83). -/
def takeVerdicts (c : Settings) (l : List VerdictEntry) (s : State) : State := l.foldl (fun t e => takeVerdict c e t) s

end Sys2Proof.Machine
end

