-- ==== Sys2Proof/Machine/Arrivals.lean ====
section
/-! DEFINITION. Arrivals between the blocks (R7, R83, R91): what each consumer does with its own, and when those that a step left on
their way are taken. -/

namespace Sys2Proof.Machine

/-! ### The fast checks (R87 to R90) -/

/-- The runs of a string after a sample, before R89: one run is raised with its worst current, the other ends. -/
def AdjRecord.sampled (c : Settings) (current : Int) (a : AdjRecord) : AdjRecord :=
  if current ≤ -(c.reverseLimit : Int) then
    { a with
      reverseRun := a.reverseRun + 1
      reversePeak := some (match a.reversePeak with
        | none => current
        | some p => min p current)
      overRun := 0, overPeak := none }
  else if (c.overcurrentLimit : Int) ≤ current then
    { a with
      reverseRun := 0, reversePeak := none
      overRun := a.overRun + 1
      overPeak := some (match a.overPeak with
        | none => current
        | some p => max p current) }
  else { a with reverseRun := 0, reversePeak := none, overRun := 0, overPeak := none }

/-- Both runs at 0 with no peak (R90). -/
def AdjRecord.untested (a : AdjRecord) : AdjRecord := { a with reverseRun := 0, reversePeak := none, overRun := 0, overPeak := none }

/-- The fault that a sampled record declares: a run has reached 3 (R89). -/
def AdjRecord.fastDeclaration (c : Settings) (i : StringIdx) (a : AdjRecord) : Option Declaration :=
  if 3 ≤ a.reverseRun then some (fastFault c i .reverseCurrent (a.reversePeak.getD 0))
  else if 3 ≤ a.overRun then some (fastFault c i .overcurrent (a.overPeak.getD 0))
  else none

/-- The Adjudicator takes the sample of one string. -/
def fastCheck (c : Settings) (i : StringIdx) (s : State) : State :=
  if (s.path i).connected then
    let a := (s.adjOf i).sampled c s.sfe.currents[i]
    match a.fastDeclaration c i with
    | none => s.setAdj i a
    | some d => declareFault c d (s.setAdj i a.untested)
  else s.setAdj i (s.adjOf i).untested

/-! ### Taking an arrival -/

/-- A consumer takes its part of the tick sample set (R7): the Adjudicator (R87), the Arc contest unit (R100), a sequencer (R124,
R126). -/
def takeTickPart (c : Settings) (s : State) : TickPart → State
  | .fastCheck i => fastCheck c i s
  | .arcContest => arcTick c s
  | .zeroBand i => zeroBandSample i s

/-- A block takes what has reached it. -/
def takeArrival (c : Settings) (s : State) : Arrival → State
  | .tick part => takeTickPart c s part
  | .verdicts set => takeVerdicts c set s
  | .goodRun => Machine.goodRun c s

/-- An open demand reaches its sequencer (R120). -/
def takeDemand (s : State) (d : Demand) : State := openDemand d.string d.reason d.steps s

/-! ### What a step left on its way (assumption log 6) -/

/-- The arrivals that wait are taken, oldest first. -/
def takeArrivals (s : State) : State :=
  match s.settings with
  | none => s.withArrivals []
  | some c => s.arrivals.foldl (takeArrival c) (s.withArrivals [])

/-- The open demands that wait reach their sequencers, oldest first. -/
def takeDemands (s : State) : State := s.demands.foldl takeDemand (s.withDemands [])

/-- The open demands of a step reach their sequencers at its end, or are still on their way. -/
def endStep (demandsWait : Bool) (s : State) : State := if demandsWait then s else takeDemands s

namespace State

/-- Everything that was on its way has been taken: the arrivals, and then the open demands, those the arrivals raised among them. -/
def settled (s : State) : State := takeDemands (takeArrivals s)

/-- The state in which a command finds the part: what is on its way is taken before any time passes, and waits in a step of the same
moment. -/
def awaited (dt : Nat) (s : State) : State := if dt = 0 then s else s.settled

/-- A command comes, `dt` microseconds after the one before it. -/
def arrive (dt : Nat) (s : State) : State := (s.awaited dt).elapse dt

end State

end Sys2Proof.Machine
end

