-- ==== Sys2Proof/Machine/Receive.lean ====
section
/-! DEFINITION. The Array bus unit's receiver (sections 2.2 to 2.4): bytes, the idle gap, completed telegrams and their delivery,
SILENT, and the commands of the array bus. -/

namespace Sys2Proof.Machine

/-! ### Delivery (R27, R29 to R32, R38) -/

/-- The station enters SILENT: the queue is emptied, a deferral ends, and the peer table removes every entry (R31, R56). The ACU,
the RQH and the RFU read the mode, so all of them take the notice in this step: that none of them takes a window close between the
change of the mode and its own notice, as R56 allows, is the model's choice (assumption log 30). -/
def enterSilent (s : State) : State :=
  (s.withAbu { s.abu with silent := true, queue := [], tx := .empty, deferral := none }).withPtb { s.ptb with entries := [] }

/-- The answer to a request that fails check 1 of R164. -/
def unreadableReply (body : List Byte) : List Byte := [body.getD 0 0, body.getD 1 0, resultBadArgument]

/-- A REQUEST addressed to the own station is delivered: a waiting reply to its source is superseded, and the request reaches the
request handler. One that fails check 1 of R164 has no row of its own and is answered here (assumption log 11). -/
def deliverRequest (t : Telegram) (s : State) : State :=
  let u := s.withAbu (s.abu.supersede t.source)
  if requestReadable t.body then u.withRequests (u.requests ++ [⟨t.source, t.body⟩])
  else offerReply t.source (unreadableReply t.body) u

/-- Whether a telegram is for all stations or for the own one. -/
def Telegram.forUs (c : Settings) (t : Telegram) : Bool := decide (t.dest = 0) || decide (t.dest = c.station)

/-- A VALID telegram from another station, delivered in RUN (R29, R30). -/
def deliverInRun (c : Settings) (t : Telegram) (s : State) : State :=
  let u := s.withPtb (s.ptb.heard t.source s.nowMs)
  if t.kind = digestCode then (if t.forUs c then takeDigest c t u else u)
  else if t.kind = arcClaimCode then (if t.forUs c then takeClaim c t u else u)
  else if t.kind = requestCode then (if t.dest = c.station then deliverRequest t u else u)
  else u

/-- A VALID telegram from another station, delivered in SILENT (R32). -/
def deliverInSilent (c : Settings) (t : Telegram) (s : State) : State :=
  if t.kind = arcClaimCode then (if t.forUs c then takeClaim c t s else s) else s

/-- A VALID telegram: the duplicate check of R31, then delivery. -/
def deliver (c : Settings) (t : Telegram) (s : State) : State :=
  if t.source = c.station then (if s.abu.silent then s else enterSilent s)
  else if s.abu.silent then deliverInSilent c t s
  else deliverInRun c t s

/-- The last check byte has been taken: the check value decides (R27). The receiver stands in GAP_WAIT. -/
def completeTelegram (c : Settings) (bytes : List Byte) (s : State) : State :=
  let a := { s.abu with rx := .gapWait, taken := [] }
  if checkAgrees bytes then deliver c (telegramOf bytes) (s.withAbu { a with tally := a.tally.bumpValid })
  else s.withAbu { a with tally := a.tally.bumpCrc }

/-! ### Bytes (R24 to R26, R40) -/

/-- A byte restarts the idle gap from its own end and abandons a running deferral. -/
def Abu.noteByte (now : Nat) (a : Abu) : Abu :=
  { a with
    lastByteEnd := now
    tx := if a.tx = .deferring then .waiting else a.tx
    deferral := if a.tx = .deferring then none else a.deferral }

/-- A stop error ends the telegram being received (R24). -/
def Abu.discardByte (a : Abu) : Abu := { a with rx := .gapWait, taken := [], tally := a.tally.bumpByte }

/-- A header field fails (R25). -/
def Abu.ignoreHeader (a : Abu) : Abu := { a with rx := .gapWait, taken := [], tally := a.tally.bumpHeader }

/-- Whether a header field passes the check of R25: the kind, the source and the body length are checked. -/
def headerFieldOk (index : Nat) (b : Byte) : Bool :=
  match index with
  | 0 => isTelegramKind b
  | 1 => decide (1 ≤ b.toNat) && decide (b.toNat ≤ 62)
  | 4 => decide (b.toNat ≤ 120)
  | _ => true

/-- The next header field arrives. -/
def Abu.headerByte (b : Byte) (a : Abu) : Abu :=
  if headerFieldOk a.taken.length b then
    { a with taken := a.taken ++ [b], rx := if a.taken.length + 1 = 5 then .body else .header }
  else a.ignoreHeader

/-- A byte arrives at the receiver (R24). -/
def classifyByte (c : Settings) (b : Byte) (stopError : Bool) (s : State) : State :=
  match s.abu.rx with
  | .gapWait => s
  | .ready => s.withAbu (if stopError then s.abu.discardByte else { s.abu with taken := [] }.headerByte b)
  | .header => s.withAbu (if stopError then s.abu.discardByte else s.abu.headerByte b)
  | .body =>
    if stopError then s.withAbu s.abu.discardByte
    else
      let bytes := s.abu.taken ++ [b]
      if bytes.length = telegramLength bytes then completeTelegram c bytes s
      else s.withAbu { s.abu with taken := bytes }

/-- A byte arrives on the array bus: a read-back while the part is transmitting, else a byte for the receiver (R24, R28). -/
def busByte (c : Settings) (b : Byte) (stopError : Bool) (s : State) : State :=
  if s.abu.tx = .sending then s.withAbu (s.abu.readBackByte s.timeUs b stopError)
  else classifyByte c b stopError (s.withAbu (s.abu.noteByte s.timeUs))

/-- BYTE_ARRIVAL. In UNCOMMISSIONED the ABU does not classify what it hears (R43). -/
def execByteArrival (dt : Nat) (b : Byte) (stopError : Bool) (s : State) : Host.Outcome State Fault Refusal :=
  let t := s.arrive dt
  match t.settings with
  | none => .next t
  | some c => .next (busByte c b stopError t)

/-- Whether one byte is wanting to complete the telegram being received. -/
def Abu.awaitsLastByte (a : Abu) : Bool :=
  decide (a.rx = .body) && decide (a.tx ≠ .sending) && decide (a.taken.length + 1 = telegramLength a.taken)

/-- TELEGRAM_COMPLETE: the last check byte arrives without stop error (R27; assumption log 12). -/
def execTelegramComplete (dt : Nat) (b : Byte) (s : State) : Host.Outcome State Fault Refusal :=
  let t := s.arrive dt
  match t.settings with
  | none => .next t
  | some c =>
    if t.abu.awaitsLastByte then
      let u := t.withAbu (t.abu.noteByte t.timeUs)
      .next (completeTelegram c (u.abu.taken ++ [b]) u)
    else .next t

/-! ### The idle gap and the transmitter's commands -/

/-- The idle gap has passed: 640 microseconds since the end of the last byte (R22). -/
def Abu.gapPassed (now : Nat) (a : Abu) : Bool := decide (a.lastByteEnd + 640 ≤ now)

/-- The receiver becomes READY; a telegram in progress is counted BYTE_DISCARD (R24, R26); a waiting entry begins a deferral
(R39). -/
def Abu.gapExpired (c : Settings) (now : Nat) (a : Abu) : Abu :=
  if a.tx = .sending ∨ a.rx = .ready ∨ a.gapPassed now = false then a
  else
    let tally := if a.rx = .gapWait then a.tally else a.tally.bumpByte
    { a with rx := .ready, taken := [], tally := tally }.beginDeferral c now

/-- IDLE_GAP_EXPIRY. -/
def execIdleGapExpiry (dt : Nat) (s : State) : Host.Outcome State Fault Refusal :=
  let t := s.arrive dt
  match t.settings with
  | none => .next t
  | some c => .next (t.withAbu (t.abu.gapExpired c t.timeUs))

/-- DEFERRAL_EXPIRY (R39, R41). -/
def execDeferralExpiry (dt : Nat) (s : State) : Host.Outcome State Fault Refusal :=
  let t := s.arrive dt
  match t.settings with
  | none => .next t
  | some c => .next (t.withAbu (t.abu.deferralExpired c t.timeUs))

/-- TRANSMISSION_COMPLETE (R41): the bytes still to be read back have been read back unchanged (assumption log 13). -/
def execTransmissionComplete (dt : Nat) (s : State) : Host.Outcome State Fault Refusal :=
  let t := s.arrive dt
  if t.abu.tx = .sending then .next (t.withAbu (t.abu.complete t.timeUs)) else .next t

/-- COLLISION (R42). -/
def execCollision (dt : Nat) (s : State) : Host.Outcome State Fault Refusal :=
  let t := s.arrive dt
  if t.abu.tx = .sending then .next (t.withAbu (t.abu.collide t.timeUs)) else .next t

end Sys2Proof.Machine
end

