-- ==== Sys2Proof/Machine/Sensing.lean ====
section
/-! DEFINITION. The protection tick and the measurement window (chapters 1, 3, 4 and 5): the Sense front end, the window accumulator,
 and the commands PROTECTION_TICK, WINDOW_SAMPLE and WINDOW_CLOSE. -/

namespace Sys2Proof.Machine

/-! ### The Sense front end (R1 to R7) -/

/-- The tick sample set becomes the latest values; the next tick falls 10 ms later. -/
def Sfe.take (raw : RawInputs) (x : Sfe) : Sfe :=
  { x with
    currents := Vector.ofFn fun i => calibrateCurrent x.trims[i] raw.currents[i]
    voltages := Vector.ofFn fun i => calibrateVoltage raw.voltages[i]
    shares := Vector.ofFn fun i => raw.shares[i].toNat
    total := calibrateTotal x.totalTrim raw.total
    bus := calibrateVoltage raw.bus
    score := raw.score.toNat
    nextTick := x.nextTick + 10000 }

/-! ### The tick and the order of its consumers (R7) -/

/-- Every part of a tick, in the order in which the model takes those that the command does not name. -/
def TickPart.all : List TickPart :=
  StringIdx.all.map TickPart.fastCheck ++ [TickPart.arcContest] ++ StringIdx.all.map TickPart.zeroBand

/-- The parts that are taken in the step, in their order: those named first, then the others, without those that are late. -/
def tickSchedule (order : TickOrder) : List TickPart :=
  (order.first ++ TickPart.all).eraseDups.filter fun p => !order.late.contains p

/-- The window accumulator's countdown falls by one; at 0 the tick is a window-sample tick and the countdown returns to k
(R9). -/
def Wac.countTick (c : Settings) (w : Wac) : Wac :=
  match w.countdown with
  | none => w
  | some n =>
    if n ≤ 1 then { w with countdown := some (c.sampleInterval / 10), sampleDue := true }
    else { w with countdown := some (n - 1) }

/-- The consumers of a tick sample set act on it, in RUN and in SILENT; the late parts are still on their way to theirs
(assumption log 6). -/
def consumeTick (c : Settings) (order : TickOrder) (s : State) : State :=
  let taken := (tickSchedule order).foldl (takeTickPart c) s
  (taken.withWac (taken.wac.countTick c)).withArrivals (taken.arrivals ++ order.late.eraseDups.map Arrival.tick)

/-- The tick reads its inputs: the Sense front end forms the set, and the Hold manager reads the shutdown input (R1, R147). -/
def readInputs (raw : RawInputs) (s : State) : State :=
  (s.withSfe (s.sfe.take raw)).withHld { s.hld with input := raw.shutdown }

/-- PROTECTION_TICK: every 10 ms, in every station mode (R1). What is still on its way of an earlier set is taken first. In
UNCOMMISSIONED the consumers have no settings and act on nothing (R98, R116, R138). -/
def execProtectionTick (dt : Nat) (raw : RawInputs) (order : TickOrder) (s : State) : Host.Outcome State Fault Refusal :=
  let t := s.arrive dt
  if t.sfe.nextTick ≤ t.timeUs then
    let u := readInputs raw (takeArrivals t)
    match u.settings with
    | none => .next u
    | some c => .next (endStep order.demandsWait (consumeTick c order u))
  else .next t

/-! ### Window samples (R10, R11) -/

/-- A window sample: every current and the box total are added, and a string that is not CLOSED loses its closed-throughout
flag. -/
def Wac.addSample (x : Sfe) (closed : StringIdx → Bool) (w : Wac) : Wac :=
  { w with
    sums := Vector.ofFn fun i => w.sums[i] + x.currents[i]
    boxSum := w.boxSum + x.total
    count := w.count + 1
    closedThroughout := Vector.ofFn fun i => w.closedThroughout[i] && closed i
    sampleDue := false }

/-- With the 64th sample the window has ended (R13): its flags and its mark stand, and what changes from now on belongs to the new
window, whose flags are set and whose mark is cleared (R12, R14). -/
def Wac.endWindow (w : Wac) : Wac :=
  if w.count = 64 then
    { w with
      endedClosed := w.closedThroughout, endedChanged := w.pathChanged
      closedThroughout := Vector.replicate 12 true, pathChanged := false }
  else w

/-- WINDOW_SAMPLE: on a window-sample tick (assumption log 8). -/
def execWindowSample (dt : Nat) (s : State) : Host.Outcome State Fault Refusal :=
  let t := s.arrive dt
  if t.wac.sampleDue = true ∧ t.wac.count < 64 then
    .next (t.withWac (t.wac.addSample t.sfe fun i => decide ((t.path i).state = .closed)).endWindow)
  else .next t

/-! ### The window close (R13 to R16) -/

/-- The tolerance of the box sum check (R15). -/
def boxTolerance (boxMean : Int) : Nat := max 20 (boxMean.natAbs * 30 / 1000)

/-- The outcome of the box sum check: whether it is a match. -/
def boxMatches (means : PerString Int) (boxMean : Int) : Bool :=
  decide ((means.toList.foldl (· + ·) 0 - boxMean).natAbs ≤ boxTolerance boxMean)

/-- The box measurement and its runs after a check that was run (R16). -/
def Wac.boxChecked (isMatch : Bool) (w : Wac) : Wac :=
  if w.boxValid then
    if isMatch then { w with mismatchRun := 0 }
    else if w.mismatchRun = 0 then { w with mismatchRun := 1 }
    else { w with boxValid := false, mismatchRun := 0, matchRun := 0 }
  else
    if isMatch then
      if w.matchRun = 0 then { w with matchRun := 1 }
      else { w with boxValid := true, mismatchRun := 0, matchRun := 0 }
    else { w with matchRun := 0 }

/-- The box total mean of the closing window (R13). -/
def Wac.boxMean (w : Wac) : Int := roundDiv w.boxSum 64

/-- The window closes: means, window number and box sum check (R13 to R16). -/
def Wac.closeWindow (w : Wac) : Wac :=
  let means : PerString Int := Vector.ofFn fun i => roundDiv w.sums[i] 64
  let closed := { w with means := means, windowNumber := w.windowNumber + 1 }
  if w.endedChanged then closed else closed.boxChecked (boxMatches means w.boxMean)

/-- The next window opens with its sums and its count at 0 (R14); its flags and its mark stand since the 64th sample. -/
def Wac.openWindow (w : Wac) : Wac := { w with sums := Vector.replicate 12 0, boxSum := 0, count := 0 }

/-- What the Reference unit takes at a close: the window result, the settings, the strike counts and the peer medians. -/
def windowInput (c : Settings) (closed : Wac) (s : State) : WindowInput :=
  { config := c, means := closed.means, closedThroughout := closed.endedClosed, boxValid := closed.boxValid
    strikes := fun i => (s.adjOf i).strikes
    peers := fun g => s.ptb.medians c s.nowMs g }

/-- The two arrivals that end a close, in either order (R144; assumption log 7). -/
def closeArrivals (order : CloseOrder) (w : WindowInput) : List Arrival :=
  if order.holdsFirst then [.goodRun, .verdicts w.verdicts] else [.verdicts w.verdicts, .goodRun]

/-- The Hold manager and the Adjudicator take a close, in the step or later (R85; assumption log 6). -/
def judgeWindow (c : Settings) (order : CloseOrder) (w : WindowInput) (s : State) : State :=
  if order.verdictsWait then s.withArrivals (s.arrivals ++ closeArrivals order w)
  else (closeArrivals order w).foldl (takeArrival c) s

/-- The Reference unit's evaluation of a closed window (R60, R68, R77) and its digest (R54, R55). -/
def evaluateWindow (w : WindowInput) (windowNumber : BitVec 16) (s : State) : State :=
  offerDigest (digestBody windowNumber w.digestGroups) (s.withRfu (w.evaluate s.rfu))

/-- The window close as a whole (R13, R14, R51, R60, R78, R144): the accumulator closes and reopens, the peer table ages, the
Reference unit evaluates and offers its digest, the Adjudicator and the Hold manager act. -/
def closeWindow (c : Settings) (order : CloseOrder) (s : State) : State :=
  let closed := s.wac.closeWindow
  let aged := (s.withWac closed.openWindow).withPtb (s.ptb.age c s.nowMs)
  let w := windowInput c closed aged
  judgeWindow c order w (evaluateWindow w closed.windowNumber aged)

/-- WINDOW_CLOSE: the 64th window sample has been added. -/
def execWindowClose (dt : Nat) (order : CloseOrder) (s : State) : Host.Outcome State Fault Refusal :=
  let t := s.arrive dt
  match t.settings with
  | none => .next t
  | some c => if t.wac.count = 64 then .next (endStep order.demandsWait (closeWindow c order t)) else .next t

end Sys2Proof.Machine
end

