-- ==== Sys2Proof/Machine/Deadlines.lean ====
section
/-! DEFINITION. The commands of the sequencers' phase deadlines (chapter 7), of the holds' times and of the shutdown line
(chapter 8), and of the arc contest's deadlines (chapter 6). -/

namespace Sys2Proof.Machine

/-- A string's sequencer stands in a path state whose phase deadline has been reached. -/
def phaseDue (state : PathState) (i : StringIdx) (s : State) : Bool :=
  decide ((s.path i).state = state) && reachedOpt s.nowMs (s.path i).deadline

/-! ### Opening (R122) -/

/-- The path part after one ramp step down. The next deadline counts from the one just reached; the final step enters
CONFIRMING, whose deadline counts from now. -/
def Path.openingStep (now : Ms) (p : Path) : Path :=
  let left := p.stepsLeft.getD 1
  let level := stepDown p.level (p.stepCount.getD 1) left
  if level = 0 then
    { p with state := .confirming, level := 0, stepCount := none, stepsLeft := none, deadline := some (now + ms 50) }
  else { p with level := level, stepsLeft := some (left - 1), deadline := p.deadline.map (· + ms 2) }

/-- OPENING_STEP. -/
def execOpeningStep (dt : Nat) (i : StringIdx) (s : State) : Host.Outcome State Fault Refusal :=
  let t := s.arrive dt
  if phaseDue .opening i t then .next (changePath i ((t.path i).openingStep t.nowMs) t) else .next t

/-! ### Confirming and parting (R125, R127) -/

/-- The confirm deadline: the string is STUCK, the box trip line is asserted and SWITCH_STUCK is declared, with the latest current as its
detail: that of the set formed last, also where the sequencer has not taken that set yet (assumption log 33). -/
def enterStuck (c : Settings) (i : StringIdx) (s : State) : State :=
  let p := s.path i
  let stuck := (changePath i { p with state := .stuck, deadline := none } s).withBoxTrip true
  declareFault c (stuckFault i s.sfe.currents[i] p.isolationStart) stuck

/-- CONFIRM_DEADLINE. -/
def execConfirmDeadline (dt : Nat) (i : StringIdx) (s : State) : Host.Outcome State Fault Refusal :=
  let t := s.arrive dt
  match t.settings with
  | none => .next t
  | some c => if phaseDue .confirming i t then .next (enterStuck c i t) else .next t

/-- PARTING_DEADLINE: the string enters ISOLATED, which makes a close consideration (R127, R142). -/
def execPartingDeadline (dt : Nat) (i : StringIdx) (s : State) : Host.Outcome State Fault Refusal :=
  let t := s.arrive dt
  if phaseDue .parting i t then
    .next (considerClose i (changePath i { t.path i with state := .isolated, deadline := none } t))
  else .next t

/-! ### Making and closing (R131, R132) -/

/-- MAKING_DEADLINE: the string enters CLOSING at drive level 0. -/
def execMakingDeadline (dt : Nat) (i : StringIdx) (s : State) : Host.Outcome State Fault Refusal :=
  let t := s.arrive dt
  match t.settings with
  | none => .next t
  | some c =>
    if phaseDue .making i t then
      .next (changePath i { t.path i with
        state := .closing, stepCount := some c.rampSteps, stepsLeft := some c.rampSteps
        deadline := some (t.nowMs + ms 2) } t)
    else .next t

/-- The path part after one ramp step up; at 255 the string enters CLOSED. -/
def Path.closingStep (p : Path) : Path :=
  let left := p.stepsLeft.getD 1
  let level := stepUp p.level (p.stepCount.getD 1) left
  if level = 255 then
    { p with state := .closed, level := 255, stepCount := none, stepsLeft := none, deadline := none, reason := none }
  else { p with level := level, stepsLeft := some (left - 1), deadline := p.deadline.map (· + ms 2) }

/-- CLOSING_STEP. -/
def execClosingStep (dt : Nat) (i : StringIdx) (s : State) : Host.Outcome State Fault Refusal :=
  let t := s.arrive dt
  if phaseDue .closing i t then .next (changePath i (t.path i).closingStep t) else .next t

/-! ### Timed holds and the voltage recheck (R141, R143) -/

/-- RETRY_END. -/
def execRetryEnd (dt : Nat) (i : StringIdx) (s : State) : Host.Outcome State Fault Refusal :=
  let t := s.arrive dt
  if reachedOpt t.nowMs (t.hold i).retryUntil then
    .next (considerClose i (t.setHold i { t.hold i with retryUntil := none }))
  else .next t

/-- STARTUP_END. -/
def execStartupEnd (dt : Nat) (i : StringIdx) (s : State) : Host.Outcome State Fault Refusal :=
  let t := s.arrive dt
  if reachedOpt t.nowMs (t.hold i).startupUntil then
    .next (considerClose i (t.setHold i { t.hold i with startupUntil := none }))
  else .next t

/-- The voltage check is made again: VOLTAGE_WAIT is removed and a permission handed, or the recheck is renewed (R143). -/
def recheckVoltage (c : Settings) (i : StringIdx) (s : State) : State :=
  if voltageOk c i s then closePermission i (s.setHold i { s.hold i with voltageRecheck := none })
  else s.setHold i { s.hold i with voltageRecheck := some (s.nowMs + ms 60000) }

/-- VOLTAGE_RECHECK. -/
def execVoltageRecheck (dt : Nat) (i : StringIdx) (s : State) : Host.Outcome State Fault Refusal :=
  let t := s.arrive dt
  match t.settings with
  | none => .next t
  | some c =>
    if reachedOpt t.nowMs (t.hold i).voltageRecheck = true ∧ (t.hold i).voltageWaitAlone = true ∧
        (t.path i).state = .isolated then .next (recheckVoltage c i t)
    else .next t

/-! ### The shutdown line (R147, R148) -/

/-- The demands of an assertion: every present string, in ascending index, with 1 step. -/
def shutdownDemands (s : State) : State :=
  StringIdx.all.foldl (fun t i => if t.present i then openDemand i .shutdown 1 t else t) s

/-- SHUTDOWN_ASSERTION: the input was read at the shutdown level on the last tick, a change. Every present string gets SHUTDOWN and
a 1-step open demand. -/
def execShutdownAssertion (dt : Nat) (s : State) : Host.Outcome State Fault Refusal :=
  let t := s.arrive dt
  if t.hld.input = true ∧ t.hld.shutdown = false then
    .next (shutdownDemands (forPresent (fun _ h => h.addShutdown) (t.withHld { t.hld with shutdown := true })))
  else .next t

/-- SHUTDOWN_DEASSERTION: the input was read back on the last tick, a change. SHUTDOWN is removed and a staggered STARTUP is set on
every present string. -/
def execShutdownDeassertion (dt : Nat) (s : State) : Host.Outcome State Fault Refusal :=
  let t := s.arrive dt
  if t.hld.input = false ∧ t.hld.shutdown = true then
    .next (forPresent (fun i h => { h with shutdown := false }.addStartup (staggerEnd t.nowMs i))
      (t.withHld { t.hld with shutdown := false }))
  else .next t

/-! ### The deadlines of the arc contest (R104, R108 to R112) -/

/-- CONTEST_WINDOW_END. -/
def execContestWindowEnd (at' : ContestEnd) (s : State) : Host.Outcome State Fault Refusal :=
  let t := s.arrive at'.dt
  match t.settings with
  | none => .next t
  | some c => .next (endStep at'.demandsWait (decideContest c t))

/-- RESOLUTION_DEADLINE. -/
def execResolutionDeadline (dt : Nat) (s : State) : Host.Outcome State Fault Refusal :=
  let t := s.arrive dt
  match t.settings with
  | none => .next t
  | some c => .next (resolve c t)

/-- QUIET_PERIOD_END. -/
def execQuietPeriodEnd (dt : Nat) (s : State) : Host.Outcome State Fault Refusal :=
  let t := s.arrive dt
  .next (t.withAcu { t.acu with contest := t.acu.contest.afterQuiet t.nowMs })

/-- SETTLE_END. -/
def execSettleEnd (dt : Nat) (s : State) : Host.Outcome State Fault Refusal :=
  let t := s.arrive dt
  .next (t.withAcu { t.acu with contest := t.acu.contest.afterSettle t.nowMs })

/-- RIVAL_EXPIRY. -/
def execRivalExpiry (dt station : Nat) (s : State) : Host.Outcome State Fault Refusal :=
  let t := s.arrive dt
  match t.settings with
  | none => .next t
  | some c => .next (t.withAcu { t.acu with rivals := expireRival c t.nowMs station t.acu.rivals })

end Sys2Proof.Machine
end

