-- ==== Sys2Proof/Machine/Requests.lean ====
section
/-! DEFINITION. The Request handler (chapter 10): the checks of R164, the seven request kinds and their replies. -/

namespace Sys2Proof.Machine

/-! ### Taking a request (R163, R164) -/

/-- What carrying out a request comes to: the state its arrivals leave, the result and the data of the reply. -/
structure Served where
  state : State
  result : Byte
  data : List Byte

/-- A request that fails a check changes nothing. -/
def Served.refusal (s : State) (result : Byte) : Served := ⟨s, result, []⟩

/-- The arguments of a request: the bytes after kind, tag and argument length. -/
def Request.args (r : Request) : List Byte := r.body.drop 3

/-- A two-byte argument at a place among the arguments. -/
def Request.word (r : Request) (k : Nat) : Nat := word16 (r.args.getD k 0) (r.args.getD (k + 1) 0)

/-- A one-byte argument. -/
def Request.byte (r : Request) (k : Nat) : Nat := (r.args.getD k 0).toNat

/-- The layout of a request kind: its code, its argument length, and whether only an operator station may send it (12.3,
R164). -/
structure RequestKind where
  code : Nat
  argLen : Nat
  operatorOnly : Bool
deriving DecidableEq, Repr

/-- The checks of R164 in their order, and then the kind's own action, which makes the check of the argument ranges first. -/
def checkedServe (kind : RequestKind) (act : Settings → Request → State → Served) (c : Settings) (r : Request) (s : State) : Served :=
  if kind.operatorOnly = true ∧ c.isOperator r.source = false then Served.refusal s resultNotPermitted
  else if requestLengthOk kind.argLen r.body then act c r s
  else Served.refusal s resultBadArgument

/-- The reply body: request kind, tag, result, and the data of a DONE reply (12.3). -/
def replyBody (r : Request) (v : Served) : List Byte := [r.body.getD 0 0, r.body.getD 1 0, v.result] ++ v.data

/-- Carry out the oldest delivered request, if it is of a kind, and offer its reply (R163). In UNCOMMISSIONED no request is taken, as
R169, R173 and R175 say, where R116 speaks of a READ_STATUS that still reports the box arc score (assumption log 29). -/
def serve (kind : RequestKind) (act : Settings → Request → State → Served) (s : State) : State :=
  match s.settings, s.requests with
  | some c, r :: rest =>
    if (r.body.getD 0 0).toNat = kind.code then
      let v := checkedServe kind act c r (s.withRequests rest)
      offerReply r.source (replyBody r v) v.state
    else s
  | some _, [] => s
  | none, _ => s

/-! ### ISOLATE and RELEASE (R165 to R167) -/

def isolateKind : RequestKind := ⟨1, 2, true⟩

/-- The per-string outcome of ISOLATE: NOT_PRESENT 7, ISOLATING 1, ALREADY_OPEN 2 (R165). -/
def isolateOutcome (s : State) (i : StringIdx) : Byte :=
  if s.present i then
    match (s.path i).state with
    | .closed => 1
    | .making => 1
    | .closing => 1
    | .opening => 2
    | .confirming => 2
    | .parting => 2
    | .isolated => 2
    | .stuck => 2
  else 7

/-- ISOLATE: the outcomes are read and the mask is handed to the Hold manager in one step, where R165 lets an event fall between the
two (assumption log 35). -/
def serveIsolate (c : Settings) (r : Request) (s : State) : Served :=
  let mask := r.word 0
  if mask = 0 ∨ maskOk mask = false then Served.refusal s resultBadArgument
  else
    let named := maskStrings mask
    ⟨isolateStrings c (named.filter s.present) s, resultDone, be16 mask ++ named.map (isolateOutcome s)⟩

/-- ISOLATE. -/
def execIsolate (dt : Nat) (s : State) : Host.Outcome State Fault Refusal := .next (serve isolateKind serveIsolate (s.arrive dt))

def releaseKind : RequestKind := ⟨2, 3, true⟩

/-- The per-string outcome of RELEASE: the first condition of R166 that holds (NOT_PRESENT 7, STILL_CONDUCTING 6,
NOT_ISOLATED 4, UNACKNOWLEDGED 5, RELEASED 3). -/
def releaseOutcome (s : State) (i : StringIdx) : Byte :=
  if s.present i = false then 7
  else if (s.path i).state = .stuck then 6
  else if (s.path i).state ≠ .isolated then 4
  else if s.flg.newestUnacknowledged i then 5
  else 3

/-- The latch clear of a RELEASE (R115, R167). -/
def clearLatch (s : State) : State := s.withAcu { s.acu with latch := false }

/-- The rest of RELEASE once its outcomes are settled: the releases, and with the flag the latch clear and the trip clear, in this
order (R167). They are one step: that nothing sets the latch again between the latch clear and the trip clear, as R137 and R167 allow,
is the model's choice (assumption log 31). -/
def releaseAction (released : List StringIdx) (clearTrip : Bool) (s : State) : State :=
  let t := if released = [] then s else releaseStrings released s
  if clearTrip then tripClear (clearLatch t) else t

def serveRelease (_c : Settings) (r : Request) (s : State) : Served :=
  let mask := r.word 0
  let flag := r.byte 2
  if maskOk mask = false ∨ 1 < flag ∨ (mask = 0 ∧ flag = 0) then Served.refusal s resultBadArgument
  else
    let named := maskStrings mask
    let t := releaseAction (named.filter fun i => decide (releaseOutcome s i = 3)) (decide (flag = 1)) s
    ⟨t, resultDone, be16 mask ++ [flagByte t.boxTrip] ++ named.map (releaseOutcome s)⟩

/-- RELEASE. -/
def execRelease (dt : Nat) (s : State) : Host.Outcome State Fault Refusal := .next (serve releaseKind serveRelease (s.arrive dt))

/-! ### ACKNOWLEDGE (R159, R168) -/

def acknowledgeKind : RequestKind := ⟨3, 2, true⟩

def serveAcknowledge (_c : Settings) (r : Request) (s : State) : Served :=
  let seq := r.word 0
  if seq = 0 then Served.refusal s resultBadArgument
  else if s.flg.has seq then
    let t := s.withFlg (s.flg.acknowledge seq r.source)
    ⟨t, resultDone, [flagByte t.indicator]⟩
  else Served.refusal s resultStaleSequence

/-- ACKNOWLEDGE. -/
def execAcknowledge (dt : Nat) (s : State) : Host.Outcome State Fault Refusal :=
  .next (serve acknowledgeKind serveAcknowledge (s.arrive dt))

/-! ### Reads (R169 to R172) -/

def readStatusKind : RequestKind := ⟨4, 0, false⟩

/-- READ_STATUS: the status block, every owner read at one moment (assumption log 34). -/
def serveReadStatus (c : Settings) (_r : Request) (s : State) : Served := ⟨s, resultDone, statusBlock c s⟩

/-- READ_STATUS. -/
def execReadStatus (dt : Nat) (s : State) : Host.Outcome State Fault Refusal :=
  .next (serve readStatusKind serveReadStatus (s.arrive dt))

def readStringsKind : RequestKind := ⟨5, 2, false⟩

/-- The strings from a first index (1 to 12) on, count in all. -/
def stringsFrom (first count : Nat) : List StringIdx := (StringIdx.all.drop (first - 1)).take count

/-- READ_STRINGS: the string reports, every owner read at one moment, where R79 and R170 make the reads separate arrivals (assumption
log 34). -/
def serveReadStrings (c : Settings) (r : Request) (s : State) : Served :=
  let first := r.byte 0
  let count := r.byte 1
  if inRange 1 12 first = false ∨ inRange 1 5 count = false ∨ 12 < first + count - 1 then Served.refusal s resultBadArgument
  else ⟨s, resultDone, [byteOf first, byteOf count] ++ ((stringsFrom first count).map (stringReport c s)).flatten⟩

/-- READ_STRINGS. -/
def execReadStrings (dt : Nat) (s : State) : Host.Outcome State Fault Refusal :=
  .next (serve readStringsKind serveReadStrings (s.arrive dt))

def readLogKind : RequestKind := ⟨6, 3, false⟩

def serveReadLog (_c : Settings) (r : Request) (s : State) : Served :=
  let start := r.word 0
  let count := r.byte 2
  if inRange 1 8 count = false then Served.refusal s resultBadArgument
  else match s.flg.readFrom start count with
    | none => Served.refusal s resultStaleSequence
    | some l => ⟨s, resultDone, byteOf l.length :: (l.map FaultRecord.bytes).flatten⟩

/-- READ_LOG. -/
def execReadLog (dt : Nat) (s : State) : Host.Outcome State Fault Refusal := .next (serve readLogKind serveReadLog (s.arrive dt))

def readTallyKind : RequestKind := ⟨7, 0, false⟩

def serveReadTally (_c : Settings) (_r : Request) (s : State) : Served :=
  ⟨s.withAbu { s.abu with tally := Tally.zero }, resultDone, s.abu.tally.bytes⟩

/-- READ_TALLY. -/
def execReadTally (dt : Nat) (s : State) : Host.Outcome State Fault Refusal :=
  .next (serve readTallyKind serveReadTally (s.arrive dt))

end Sys2Proof.Machine
end

