-- ==== Sys2Proof/Machine/Service.lean ====
section
/-! DEFINITION. The Service link unit (chapter 11): the session, the bytes of commands, every service command, and the completion
of store writes. -/

namespace Sys2Proof.Machine

/-! ### Answers (R177) -/

/-- The microseconds that a number of bytes take at 19 200 bit/s, ten bit times to a byte, rounded up. -/
def linkTime (bytes : Nat) : Nat := (bytes * 3125 + 5) / 6

/-- An answer becomes ready: it follows those still being sent. Answers already sent leave the list (assumption log 16). -/
def Svl.answer (now : Nat) (bytes : List Byte) (v : Svl) : Svl :=
  let sentAt := max now v.linkFree + linkTime bytes.length
  { v with answers := (v.answers.filter fun a => decide (now < a.sentAt)) ++ [⟨bytes, sentAt⟩], linkFree := sentAt }

/-- Send an answer. -/
def sendAnswer (bytes : List Byte) (s : State) : State := s.withSvl (s.svl.answer s.timeUs bytes)

/-- The ENTER answer: mode, offending field, seal, write state, last reset kind (R177, 12.4). -/
def enterAnswer (s : State) : List Byte :=
  [byteOf s.mode.code, byteOf s.nvs.offending, flagByte s.nvs.sealSet, flagByte s.nvs.write.isSome, byteOf s.nvs.lastReset.code]

/-! ### Silences (R177) -/

/-- The session returns to NONE: a command being received is discarded and an answer not yet sent is not sent, nor the answer of
a write in progress; a RESTART whose answer has not been sent falls with it (assumption log 17). An answer that is being sent is cut
off at once (assumption log 36). -/
def endSession (s : State) : State :=
  (s.withSvl { s.svl with
    session := .none, receiving := [], skipping := false, answers := [], linkFree := min s.svl.linkFree s.timeUs
    restart := match s.svl.restart with
      | none => none
      | some t => if s.timeUs < t then none else some t }).withNvs
    { s.nvs with write := s.nvs.write.map fun w => { w with answerOwed := false } }

/-- 100 ms without a byte: a command being received is discarded, and passing over bytes ends. -/
def Svl.dropCommand (v : Svl) : Svl := { v with receiving := [], skipping := false }

/-- Whether a silence has lasted so many milliseconds of uptime, by difference (assumption log 18). -/
def Svl.silentFor (span : Nat) (now : Ms) (v : Svl) : Bool := decide (span ≤ since now v.lastByte)

/-- Whether the session's 10 s have passed. -/
def sessionExpired (s : State) : Bool := decide (s.svl.session ≠ .none) && s.svl.silentFor 10000 s.nowMs

/-- The silences that end at the moment a byte comes (assumption log 18). -/
def settleSilence (s : State) : State :=
  if sessionExpired s then endSession s
  else if s.svl.silentFor 100 s.nowMs then s.withSvl s.svl.dropCommand
  else s

/-! ### Reads (R178) -/

/-- READ_FACTORY: page 3 and the thirteen neutral-trim flags, with 0 in the three bits of the mask that 12.4 gives no channel (assumption
log 32). -/
def readFactory (s : State) : State :=
  let flags := maskOf (fun i => s.sfe.trims[i].replaced) + 4096 * s.sfe.totalTrim.replaced.toNat
  sendAnswer (statusDone :: (s.nvs.store.page 3 ++ be16 flags)) s

/-- READ_PAGE. -/
def readPage (page : Byte) (s : State) : State :=
  if page.toNat ≤ 3 then sendAnswer (statusDone :: s.nvs.store.page page.toNat) s else sendAnswer [statusBadPage] s

/-- The number of places at which two runs of bytes differ. -/
def differing (l m : List Byte) : Nat := ((l.zip m).filter fun p => decide (p.1 ≠ p.2)).length

/-- Whether a service write runs: any write but a lockout page write. -/
def Nvs.serviceWriting (n : Nvs) : Bool :=
  match n.write with
  | none => false
  | some w => decide (w.kind ≠ .lockoutPage)

/-- VERIFY_PAGE. -/
def verifyPage (s : State) : State :=
  if s.nvs.serviceWriting then sendAnswer [statusBusy] s
  else sendAnswer [statusDone, byteOf (differing s.nvs.buffer (s.nvs.store.page s.svl.loadedPage))] s

/-! ### Programming commands (R178 to R181) -/

/-- Checks 2 and 3 of a programming command: the status on failure. -/
def programmingRefusal (s : State) : Option Byte :=
  if s.presentIsolated = false then some statusStringsClosed
  else if s.nvs.write.isSome then some statusBusy
  else none

/-- A page's worth of bytes. -/
def pageBytes (l : List Byte) : List Byte := (List.range 64).map fun k => l.getD k erasedByte

/-- LOAD_BUFFER. -/
def loadBuffer (page : Byte) (content : List Byte) (s : State) : State :=
  if 3 < page.toNat then sendAnswer [statusBadPage] s
  else match programmingRefusal s with
    | some status => sendAnswer [status] s
    | none =>
      sendAnswer [statusDone]
        ((s.withNvs { s.nvs with buffer := pageBytes content }).withSvl { s.svl with loadedPage := page.toNat })

/-- PROGRAM_PAGE: refused on pages 2 and 3, and with SEALED on pages 0 and 1 of a sealed store; else the write begins and DONE is
owed. -/
def programPage (s : State) : State :=
  match programmingRefusal s with
  | some status => sendAnswer [status] s
  | none =>
    if 2 ≤ s.svl.loadedPage then sendAnswer [statusBadPage] s
    else if s.nvs.sealSet then sendAnswer [statusSealed] s
    else beginWrite .program s.svl.loadedPage s.nvs.buffer true s

/-- ERASE_STORE. -/
def eraseStore (s : State) : State :=
  match programmingRefusal s with
  | some status => sendAnswer [status] s
  | none => beginWrite .erase 0 [] true s

/-- SEAL. -/
def sealStore (s : State) : State :=
  match programmingRefusal s with
  | some status => sendAnswer [status] s
  | none =>
    if s.nvs.sealSet then sendAnswer [statusSealed] s
    else if offendingField s.nvs.store ≠ 0 then sendAnswer [statusNotLoadable] s
    else beginWrite .sealing 2 (lockoutPageBytes 0 0) true s

/-- RESTART: answered DONE, and a SERVICE_RESTART is arranged for when that answer has been sent. One that was arranged before stays
as it was: the reset comes with the first. -/
def restartPart (s : State) : State :=
  match programmingRefusal s with
  | some status => sendAnswer [status] s
  | none =>
    let t := sendAnswer [statusDone] s
    t.withSvl { t.svl with restart := some (s.svl.restart.getD t.svl.linkFree) }

/-! ### Bytes (R177) -/

/-- A command byte, or a byte of an ENTER in OPEN, that is not understood: BAD_COMMAND, and bytes are passed over. -/
def badCommand (s : State) : State :=
  let t := sendAnswer [statusBadCommand] s
  t.withSvl { t.svl with receiving := [], skipping := true }

/-- Keep the bytes of the command being received. -/
def keepReceiving (bytes : List Byte) (s : State) : State := s.withSvl { s.svl with receiving := bytes }

/-- The first byte of a command in OPEN. -/
def commandByte (b : Byte) (s : State) : State :=
  if b = 0xA7 then keepReceiving [b] s
  else if b = 0x41 then readFactory s
  else if b = 0x42 then keepReceiving [b] s
  else if b = 0x43 then keepReceiving [b] s
  else if b = 0x44 then programPage s
  else if b = 0x45 then verifyPage s
  else if b = 0x46 then eraseStore s
  else if b = 0x47 then sealStore s
  else if b = 0x48 then restartPart s
  else badCommand s

/-- A further byte of an ENTER in OPEN: the second must be 0x5C, which is echoed; the fourth completes it. -/
def enterByte (args : List Byte) (b : Byte) (s : State) : State :=
  match args with
  | [] => if b = 0x5C then sendAnswer [0x5C] (keepReceiving [0xA7, 0x5C] s) else badCommand s
  | [x] => keepReceiving [0xA7, x, b] s
  | _ :: _ :: _ => let t := keepReceiving [] s; sendAnswer (enterAnswer t) t

/-- A further byte of the command being received. -/
def argumentByte (command : Byte) (args : List Byte) (b : Byte) (s : State) : State :=
  if command = 0xA7 then enterByte args b s
  else if command = 0x42 then readPage b (keepReceiving [] s)
  else if args.length < 64 then keepReceiving (command :: (args ++ [b])) s
  else loadBuffer (args.getD 0 0) (args.drop 1 ++ [b]) (keepReceiving [] s)

/-- A byte in OPEN. -/
def openByte (b : Byte) (s : State) : State :=
  if s.svl.skipping then s
  else match s.svl.receiving with
    | [] => commandByte b s
    | command :: args => argumentByte command args b s

/-- Move the session to another entry state. -/
def toSession (x : Session) (s : State) : State := s.withSvl { s.svl with session := x }

/-- A byte in each session state (the table of R177). -/
def sessionByte (b : Byte) (s : State) : State :=
  match s.svl.session with
  | .none => if b = 0xA7 then toSession .entry1 s else s
  | .entry1 =>
    if b = 0x5C then sendAnswer [0x5C] (toSession .entry2 s)
    else if b = 0xA7 then s
    else toSession .none s
  | .entry2 => toSession .entry3 s
  | .entry3 => let t := toSession .opened s; sendAnswer (enterAnswer t) t
  | .opened => openByte b s

/-- A byte arrives on the service link without stop error. -/
def linkByte (s : State) (b : Byte) : State :=
  let t := settleSilence s
  sessionByte b (t.withSvl { t.svl with lastByte := t.nowMs })

/-- Bytes arrive on the service link. -/
def linkBytes (bytes : List Byte) (s : State) : State := bytes.foldl linkByte s

/-- A byte with a stop error: an entry state returns to NONE, a command being received is discarded (R177). -/
def linkStopError (s : State) : State :=
  let t := settleSilence s
  let u := t.withSvl { t.svl with lastByte := t.nowMs }
  match u.svl.session with
  | .none => u
  | .entry1 => toSession .none u
  | .entry2 => toSession .none u
  | .entry3 => toSession .none u
  | .opened => keepReceiving [] u

/-! ### The commands of the service link -/

/-- ENTER. -/
def execEnter (dt : Nat) (args : List Byte) (s : State) : Host.Outcome State Fault Refusal :=
  .next (linkBytes (0xA7 :: args) (s.arrive dt))

/-- READ_FACTORY. -/
def execReadFactory (dt : Nat) (s : State) : Host.Outcome State Fault Refusal := .next (linkBytes [0x41] (s.arrive dt))

/-- READ_PAGE. -/
def execReadPage (dt : Nat) (args : List Byte) (s : State) : Host.Outcome State Fault Refusal :=
  .next (linkBytes (0x42 :: args) (s.arrive dt))

/-- LOAD_BUFFER. -/
def execLoadBuffer (dt : Nat) (args : List Byte) (s : State) : Host.Outcome State Fault Refusal :=
  .next (linkBytes (0x43 :: args) (s.arrive dt))

/-- PROGRAM_PAGE. -/
def execProgramPage (dt : Nat) (s : State) : Host.Outcome State Fault Refusal := .next (linkBytes [0x44] (s.arrive dt))

/-- VERIFY_PAGE. -/
def execVerifyPage (dt : Nat) (s : State) : Host.Outcome State Fault Refusal := .next (linkBytes [0x45] (s.arrive dt))

/-- ERASE_STORE. -/
def execEraseStore (dt : Nat) (s : State) : Host.Outcome State Fault Refusal := .next (linkBytes [0x46] (s.arrive dt))

/-- SEAL. -/
def execSeal (dt : Nat) (s : State) : Host.Outcome State Fault Refusal := .next (linkBytes [0x47] (s.arrive dt))

/-- RESTART. -/
def execRestart (dt : Nat) (s : State) : Host.Outcome State Fault Refusal := .next (linkBytes [0x48] (s.arrive dt))

/-- UNKNOWN_COMMAND_BYTE: a byte that is none of the command bytes (assumption log 15). -/
def execUnknownCommandByte (dt : Nat) (b : Byte) (s : State) : Host.Outcome State Fault Refusal :=
  .next (linkBytes [b] (s.arrive dt))

/-- SERVICE_STOP_ERROR. -/
def execServiceStopError (dt : Nat) (s : State) : Host.Outcome State Fault Refusal := .next (linkStopError (s.arrive dt))

/-- COMMAND_TIMEOUT: 100 ms without a byte in OPEN. -/
def execCommandTimeout (dt : Nat) (s : State) : Host.Outcome State Fault Refusal :=
  let t := s.arrive dt
  if t.svl.session = .opened ∧ t.svl.silentFor 100 t.nowMs = true then .next (t.withSvl t.svl.dropCommand) else .next t

/-- SESSION_TIMEOUT: 10 s without a byte. -/
def execSessionTimeout (dt : Nat) (s : State) : Host.Outcome State Fault Refusal :=
  let t := s.arrive dt
  if sessionExpired t then .next (endSession t) else .next t

/-! ### Completion of store writes (R150, R176, R179, R180) -/

/-- A service write completes: its content is programmed, the DONE still owed is sent, and a pending mask change begins a lockout
page write. -/
def completeService (w : Write) (s : State) : State :=
  let t := finishWrite w s
  if w.answerOwed then sendAnswer [statusDone] t else t

/-- LOCKOUT_PAGE_WRITE_COMPLETE. -/
def execLockoutPageWriteComplete (dt : Nat) (s : State) : Host.Outcome State Fault Refusal :=
  let t := s.arrive dt
  match writeDue .lockoutPage t with
  | none => .next t
  | some w => .next (finishWrite w t)

/-- PROGRAM_COMPLETE. -/
def execProgramComplete (dt : Nat) (s : State) : Host.Outcome State Fault Refusal :=
  let t := s.arrive dt
  match writeDue .program t with
  | none => .next t
  | some w => .next (completeService w t)

/-- ERASE_COMPLETE. -/
def execEraseComplete (dt : Nat) (s : State) : Host.Outcome State Fault Refusal :=
  let t := s.arrive dt
  match writeDue .erase t with
  | none => .next t
  | some w => .next (completeService w t)

/-- SEAL_COMPLETE. -/
def execSealComplete (dt : Nat) (s : State) : Host.Outcome State Fault Refusal :=
  let t := s.arrive dt
  match writeDue .sealing t with
  | none => .next t
  | some w => .next (completeService w t)

end Sys2Proof.Machine
end

