-- ==== Sys2Proof/Machine/Reset.lean ====
section
/-! DEFINITION. The three resets (R174) and the settings load (R175, R149). -/

namespace Sys2Proof.Machine

/-- The fault log across a SERVICE_RESTART: kept, with every declaration time made absent (R161). -/
def Flg.restarted (f : Flg) : Flg := { f with records := f.records.map fun r => { r with declared := none } }

/-- The store unit at a reset: a write in progress is cut off, the page buffer is erased, and the reset kind is recorded
(R174, R176). -/
def resetStore (kind : ResetKind) (n : Nvs) : Nvs :=
  { cutOff n with buffer := List.replicate 64 erasedByte, pendingMask := false, lastReset := kind }

/-- Every block at its reset values, no setting latched. The queue of commands is not the part's. -/
def blankReset (kind : ResetKind) (flg : Flg) (s : State) : State :=
  { timeUs := 0
    settings := none
    sfe := Sfe.reset (Vector.replicate 12 Trim.neutral) Trim.neutral
    wac := Wac.reset
    abu := Abu.reset s.abu.draws
    ptb := Ptb.reset
    rfu := Rfu.reset
    adj := Vector.replicate 12 AdjRecord.reset
    acu := Acu.reset
    paths := Vector.replicate 12 Path.reset
    boxTrip := false
    hld := ⟨Vector.replicate 12 Hold.reset, s.hld.shutdown, s.hld.shutdown, false⟩
    nvs := resetStore kind s.nvs
    flg
    requests := []
    svl := Svl.reset
    arrivals := []
    demands := []
    pending := s.pending }

/-- The start-up holds of a present string (R149, steps 1, 2 and 4). -/
def startHold (m : Memory) (shutdown : Bool) (now : Ms) (i : StringIdx) (h : Hold) : Hold :=
  { h with
    startupUntil := some (staggerEnd now i)
    lockout := lockoutPageGood m && maskHas (pageLockoutMask m) i
    manual := lockoutPageGood m && maskHas (pageManualMask m) i
    shutdown }

/-- The Hold manager builds the hold sets at a load in RUN. A lockout page that is not good locks out every present string,
which is a mask change (R149, R151). -/
def startHolds (s : State) : State :=
  let m := s.nvs.store
  let held := forPresent (startHold m s.hld.shutdown s.nowMs) s
  if lockoutPageGood m then held
  else withMaskChange (forPresent fun _ h => h.addLockout) (held.withHld { held.hld with pageLost := true })

/-- Latch the trims of the factory page (R6). -/
def loadTrims (s : State) : State := s.withSfe (Sfe.reset (trimsOf s.nvs.store) (totalTrimOf s.nvs.store))

/-- The settings load (R175): the trims are latched in every case; a record that passes is latched, the first window opens (R9)
and the hold sets are built; a record that fails leaves the station UNCOMMISSIONED with the offending field. -/
def settingsLoad (s : State) : State :=
  let field := offendingField s.nvs.store
  let t := (loadTrims s).withNvs { s.nvs with offending := field }
  if field = 0 then
    let c := settingsOf s.nvs.store
    startHolds ((t.withSettings (some c)).withWac { t.wac with countdown := some (c.sampleInterval / 10) })
  else t

/-- A reset of a kind, and the settings load that follows, with the shutdown input at a level. -/
def resetPart (kind : ResetKind) (shutdown : Bool) (flg : Flg) (s : State) : State :=
  settingsLoad (blankReset kind flg (s.withHld { s.hld with shutdown }))

/-- POWER_ON. What was on its way between the blocks has been taken before it (R97). -/
def execPowerOn (shutdown : Bool) (s : State) : Host.Outcome State Fault Refusal :=
  .next (resetPart .powerOn shutdown Flg.reset s.settled)

/-- SUPPLY_DIP: the same as POWER_ON, recorded as SUPPLY_DIP. -/
def execSupplyDip (shutdown : Bool) (s : State) : Host.Outcome State Fault Refusal :=
  .next (resetPart .supplyDip shutdown Flg.reset s.settled)

/-- Whether a taken RESTART may reset the part: its answer has been sent and the write state is IDLE (R181). -/
def restartDue (s : State) : Bool :=
  match s.svl.restart with
  | none => false
  | some t => decide (t ≤ s.timeUs) && s.nvs.write.isNone

/-- SERVICE_RESTART: the fault log is kept. -/
def execServiceRestart (dt : Nat) (shutdown : Bool) (s : State) : Host.Outcome State Fault Refusal :=
  let t := s.settled.elapse dt
  if restartDue t then .next (resetPart .serviceRestart shutdown t.flg.restarted t) else .next t

end Sys2Proof.Machine
end

