-- ==== Sys2Proof/Machine/Dispatch.lean ====
section
/-! DEFINITION. The table of meanings: one arm for each command. -/

namespace Sys2Proof.Machine

/-- The effect of a command on everything but the queue. -/
def exec (i : Instr) (s : State) : Host.Outcome State Fault Refusal :=
  match i with
  | .powerOn shutdown => Sys2Proof.Machine.execPowerOn shutdown s
  | .supplyDip shutdown => Sys2Proof.Machine.execSupplyDip shutdown s
  | .serviceRestart dt shutdown => Sys2Proof.Machine.execServiceRestart dt shutdown s
  | .protectionTick dt raw order => Sys2Proof.Machine.execProtectionTick dt raw order s
  | .windowSample dt => Sys2Proof.Machine.execWindowSample dt s
  | .windowClose dt order => Sys2Proof.Machine.execWindowClose dt order s
  | .shutdownAssertion dt => Sys2Proof.Machine.execShutdownAssertion dt s
  | .shutdownDeassertion dt => Sys2Proof.Machine.execShutdownDeassertion dt s
  | .openingStep dt str => Sys2Proof.Machine.execOpeningStep dt str s
  | .confirmDeadline dt str => Sys2Proof.Machine.execConfirmDeadline dt str s
  | .partingDeadline dt str => Sys2Proof.Machine.execPartingDeadline dt str s
  | .makingDeadline dt str => Sys2Proof.Machine.execMakingDeadline dt str s
  | .closingStep dt str => Sys2Proof.Machine.execClosingStep dt str s
  | .retryEnd dt str => Sys2Proof.Machine.execRetryEnd dt str s
  | .startupEnd dt str => Sys2Proof.Machine.execStartupEnd dt str s
  | .voltageRecheck dt str => Sys2Proof.Machine.execVoltageRecheck dt str s
  | .contestWindowEnd at' => Sys2Proof.Machine.execContestWindowEnd at' s
  | .resolutionDeadline dt => Sys2Proof.Machine.execResolutionDeadline dt s
  | .quietPeriodEnd dt => Sys2Proof.Machine.execQuietPeriodEnd dt s
  | .settleEnd dt => Sys2Proof.Machine.execSettleEnd dt s
  | .rivalExpiry dt station => Sys2Proof.Machine.execRivalExpiry dt station s
  | .telegramComplete dt byte => Sys2Proof.Machine.execTelegramComplete dt byte s
  | .idleGapExpiry dt => Sys2Proof.Machine.execIdleGapExpiry dt s
  | .deferralExpiry dt => Sys2Proof.Machine.execDeferralExpiry dt s
  | .transmissionComplete dt => Sys2Proof.Machine.execTransmissionComplete dt s
  | .collision dt => Sys2Proof.Machine.execCollision dt s
  | .isolate dt => Sys2Proof.Machine.execIsolate dt s
  | .release dt => Sys2Proof.Machine.execRelease dt s
  | .acknowledge dt => Sys2Proof.Machine.execAcknowledge dt s
  | .readStatus dt => Sys2Proof.Machine.execReadStatus dt s
  | .readStrings dt => Sys2Proof.Machine.execReadStrings dt s
  | .readLog dt => Sys2Proof.Machine.execReadLog dt s
  | .readTally dt => Sys2Proof.Machine.execReadTally dt s
  | .lockoutPageWriteComplete dt => Sys2Proof.Machine.execLockoutPageWriteComplete dt s
  | .enter dt args => Sys2Proof.Machine.execEnter dt args s
  | .readFactory dt => Sys2Proof.Machine.execReadFactory dt s
  | .readPage dt args => Sys2Proof.Machine.execReadPage dt args s
  | .verifyPage dt => Sys2Proof.Machine.execVerifyPage dt s
  | .loadBuffer dt args => Sys2Proof.Machine.execLoadBuffer dt args s
  | .programPage dt => Sys2Proof.Machine.execProgramPage dt s
  | .programComplete dt => Sys2Proof.Machine.execProgramComplete dt s
  | .eraseStore dt => Sys2Proof.Machine.execEraseStore dt s
  | .eraseComplete dt => Sys2Proof.Machine.execEraseComplete dt s
  | .sealStore dt => Sys2Proof.Machine.execSeal dt s
  | .sealComplete dt => Sys2Proof.Machine.execSealComplete dt s
  | .restart dt => Sys2Proof.Machine.execRestart dt s
  | .unknownCommandByte dt byte => Sys2Proof.Machine.execUnknownCommandByte dt byte s
  | .commandTimeout dt => Sys2Proof.Machine.execCommandTimeout dt s
  | .sessionTimeout dt => Sys2Proof.Machine.execSessionTimeout dt s
  | .byteArrival dt byte stopError => Sys2Proof.Machine.execByteArrival dt byte stopError s
  | .serviceStopError dt => Sys2Proof.Machine.execServiceStopError dt s

end Sys2Proof.Machine
end

