-- ==== Sys2Proof/Safety.lean ====
section
/-! DEFINITION. What a safe state is: the conditions that the spec says hold at every moment, as Booleans over one state. -/

namespace Sys2Proof.Machine

/-! ### Paths (R118, R119, R127) -/

/-- The path part of a string holds together as R118 says: in each path state the drive level stands where the table of R118 puts
it, and exactly the fields named there are present. In OPENING no more steps remain than the ramp has; in CLOSING the level is the
increments of R119 taken so far. -/
def Path.ok (p : Path) : Bool :=
  match p.state with
  | .closed =>
    decide (p.level = 255) && p.stepCount.isNone && p.stepsLeft.isNone && p.deadline.isNone && p.reason.isNone
      && p.isolationStart.isNone
  | .opening =>
    (match p.stepCount, p.stepsLeft with
      | some n, some k => inRange 1 16 n && inRange 1 n k
      | none, _ => false
      | some _, none => false)
      && decide (p.level ≤ 255) && p.deadline.isSome && p.reason.isSome && p.isolationStart.isSome
  | .confirming =>
    decide (p.level = 0) && p.stepCount.isNone && p.stepsLeft.isNone && p.deadline.isSome && p.reason.isSome
      && p.isolationStart.isSome
  | .parting =>
    decide (p.level = 0) && p.stepCount.isNone && p.stepsLeft.isNone && p.deadline.isSome && p.reason.isSome
      && p.isolationStart.isSome
  | .isolated =>
    decide (p.level = 0) && p.stepCount.isNone && p.stepsLeft.isNone && p.deadline.isNone && p.reason.isSome
  | .making =>
    decide (p.level = 0) && p.stepCount.isNone && p.stepsLeft.isNone && p.deadline.isSome && p.reason.isSome
      && p.isolationStart.isNone
  | .closing =>
    (match p.stepCount, p.stepsLeft with
      | some n, some k => inRange 1 16 n && inRange 1 n k && decide (p.level = (n - k) * (255 / n))
      | none, _ => false
      | some _, none => false)
      && p.deadline.isSome && p.reason.isSome && p.isolationStart.isNone
  | .stuck =>
    decide (p.level = 0) && p.stepCount.isNone && p.stepsLeft.isNone && p.deadline.isNone && p.reason.isSome
      && p.isolationStart.isSome

namespace State

/-- Every string's path part holds together, and the ramp steps setting and those of every open demand on its way are such as load
(R118, R119). -/
def pathsOk (s : State) : Bool :=
  (match s.settings with
    | none => true
    | some c => inRange 1 16 c.rampSteps)
    && s.demands.all (fun d => inRange 1 16 d.steps) && StringIdx.all.all fun i => (s.path i).ok

/-- A string's relay is open only when its gate drive level is 0 (R127). -/
def relaysSafe (s : State) : Bool := StringIdx.all.all fun i => !(s.path i).relayOpen || decide ((s.path i).level = 0)

/-- Whenever a string is STUCK or the unlocated-arc latch is set, the box trip line is asserted (R136, R115). -/
def tripOk (s : State) : Bool := !(s.anyStuck || s.acu.latch) || s.boxTrip

end State

/-! ### Holds (R139, R143, R144) -/

/-- The hold part of a string: VOLTAGE_WAIT stands beside no other hold, and the retry count is within the budget. -/
def Hold.ok (budget : Nat) (h : Hold) : Bool :=
  (h.voltageRecheck.isNone || h.voltageWaitAlone) && decide (h.retryCount ≤ budget)

namespace State

/-- The retry budget in force. -/
def retryBudget (s : State) : Nat :=
  match s.settings with
  | none => 0
  | some c => c.retryBudget

/-- Every string's hold part holds together: a string that is not present has no hold, and closed-since is present exactly while
the string is CLOSED. -/
def holdsOk (s : State) : Bool :=
  StringIdx.all.all fun i =>
    (s.hold i).ok s.retryBudget && (s.present i || (s.hold i).empty)
      && decide ((s.hold i).closedSince.isSome = decide ((s.path i).state = .closed))

end State

/-! ### Transmit queue (R34) -/

/-- The transmit queue: at most 8 entries, at most one DIGEST, an ARC_CLAIM at the front alone, at most one entry in flight and none
unless the part is sending, attempts below the limit of the class; EMPTY exactly when nothing is queued, and a deferral exactly in
DEFERRING. -/
def Abu.queueOk (a : Abu) : Bool :=
  decide (a.queue.length ≤ 8)
    && decide ((a.queue.filter fun e => decide (e.kind = .digest)).length ≤ 1)
    && (a.queue.drop 1).all (fun e => !e.urgent)
    && decide ((a.queue.filter TxEntry.inFlight).length ≤ 1)
    && (decide (a.tx = .sending) || a.queue.all fun e => !e.inFlight)
    && a.queue.all (fun e => decide (e.attempts < e.limit))
    && decide (a.queue.isEmpty = decide (a.tx = .empty))
    && decide (a.deferral.isSome = decide (a.tx = .deferring))

/-- The seven counts lie between 0 and 65535 (R33). -/
def Tally.ok (t : Tally) : Bool :=
  decide (t.valid ≤ 65535) && decide (t.crcDiscard ≤ 65535) && decide (t.byteDiscard ≤ 65535)
    && decide (t.headerIgnored ≤ 65535) && decide (t.collisions ≤ 65535) && decide (t.txDropped ≤ 65535)
    && decide (t.repliesSuperseded ≤ 65535)

/-! ### Peer table and rival list (R44, R104) -/

/-- Numbers stand in strictly ascending order. -/
def ascending : List Nat → Bool
  | [] => true
  | n :: l => l.all (fun m => decide (n < m)) && ascending l

namespace State

/-- The peer table: at most 24 entries, no station twice, never the own station, and an overflow count of at most 65535. -/
def peersOk (s : State) : Bool :=
  decide (s.ptb.entries.length ≤ 24) && ascending (s.ptb.entries.map PeerEntry.station)
    && decide (s.ptb.overflow ≤ 65535)
    && (match s.settings with
      | none => s.ptb.entries.isEmpty
      | some c => s.ptb.entries.all fun e => decide (e.station ≠ c.station))

/-- The rival list: at most 8 entries and at most one of each station. -/
def rivalsOk (s : State) : Bool := decide (s.acu.rivals.length ≤ 8) && decide (s.acu.rivals.map Rival.station).Nodup

end State

/-! ### Fault log (R155, R156) -/

/-- Records are numbered consecutively, from 65535 on to 1, and the number after the last is `next`. -/
def numbered (next : Nat) : List FaultRecord → Bool
  | [] => true
  | [r] => decide (succSeq r.seq = next)
  | r :: q :: l => decide (succSeq r.seq = q.seq) && numbered next (q :: l)

/-- No acknowledged record stands behind an unacknowledged one (R156). -/
def acknowledgedFirst : List FaultRecord → Bool
  | [] => true
  | r :: l => (r.ackBy.isSome || l.all fun q => q.ackBy.isNone) && acknowledgedFirst l

/-- The fault log: at most 32 records in a run of consecutive numbers 1 to 65535, the acknowledged ones in front, and a lost count
of at most 255. -/
def Flg.ok (f : Flg) : Bool :=
  decide (f.records.length ≤ 32) && inRange 1 65535 f.nextSeq && f.records.all (fun r => inRange 1 65535 r.seq)
    && numbered f.nextSeq f.records && acknowledgedFirst f.records && decide (f.lost ≤ 255)

/-! ### Strikes (R82) -/

/-- A verdict set on its way has entries for present strings alone (R76); every other arrival names none. -/
def Arrival.ok (s : State) : Arrival → Bool
  | .tick _ => true
  | .verdicts set => set.all fun e => s.present e.string
  | .goodRun => true

/-- Every present string has fewer strikes than the persistence, and every other string none, nor an entry in a verdict set on its way
(R82, R76). -/
def State.strikesOk (s : State) : Bool :=
  s.arrivals.all (Arrival.ok s) && StringIdx.all.all fun i =>
    match s.settings with
    | none => decide ((s.adjOf i).strikes = 0)
    | some c =>
      inRange 2 30 c.persistence &&
        decide ((s.adjOf i).strikes < if c.strings[i].present then c.persistence else 1)

/-! ### Windows (R10, R16) -/

/-- The open window holds at most 64 samples, and each run of the box sum check is 0 or 1. -/
def Wac.ok (w : Wac) : Bool := decide (w.count ≤ 64) && decide (w.mismatchRun ≤ 1) && decide (w.matchRun ≤ 1)

end Sys2Proof.Machine
end

