-- ==== Sys2Proof/Certificates/Slice0/Obligations.lean ====
section
/-! DEFINITION. The statements for the provers, in three parts: the machine as a whole, the rules of each family of commands, and
the conditions that every step keeps. In the second part `s` is the part as a command finds it, `start.arrive dt`: the state before
the command with the time since the last command passed, and with what was on its way between the blocks taken before that time passed
(assumption log 6; ArrivalsAndDemandsAreTakenBeforeTimePasses). -/

open Sys2Proof Sys2Proof.Machine

/-! ### The queue, the clock and what is on its way -/

/-- A step runs the command at the front of the queue on the state with the rest of the queue; on an empty queue the part idles
(idling is the model's choice, assumption log 4). -/
def Obligations.StepRunsTheFrontCommand : Prop :=
  (∀ (c : Instr) (rest : List Instr) (s : State), step { s with pending := c :: rest } = exec c { s with pending := rest }) ∧
  (∀ s : State, s.pending = [] → step s = .next s)

/-- Every command completes in every state and leaves the queue as it is; the uptime grows by the command's own span, or starts again
from 0 at a reset. These are the model's own: that no command stops is deduced (assumption log 26), that a command whose condition does
not hold lets time pass alone is assumption log 2, and how time reaches the part is assumption log 1. -/
def Obligations.EveryCommandAnswersNext : Prop :=
  ∀ (c : Instr) (s : State), ∃ t, exec c s = .next t ∧ t.pending = s.pending ∧
    (t.timeUs = s.timeUs + c.span ∨
      (t.timeUs = 0 ∧ ((∃ level, c = .powerOn level) ∨ (∃ level, c = .supplyDip level) ∨ ∃ dt level, c = .serviceRestart dt level)))

/-- What the blocks have sent one another and not yet taken is taken before any time passes, and before a reset; in a step of the same
moment it waits (R7, R83, R91 leave the order open; that it may wait is the model's choice, assumption log 6). The arrivals come first,
oldest first, each to its own consumer, and then the open demands, each on its own string. -/
def Obligations.ArrivalsAndDemandsAreTakenBeforeTimePasses : Prop :=
  (∀ (c : Instr) (s : State),
    0 < c.span ∨ (∃ level, c = .powerOn level) ∨ (∃ level, c = .supplyDip level) ∨ (∃ dt level, c = .serviceRestart dt level) →
    exec c s = exec c s.settled) ∧
  (∀ (dt : Nat) (s : State), (s.arrive dt).timeUs = s.timeUs + dt ∧ (0 < dt → s.arrive dt = s.settled.elapse dt) ∧
    (dt = 0 → s.arrive dt = s)) ∧
  (∀ s : State, s.settled = takeDemands (takeArrivals s) ∧ s.settled.arrivals = [] ∧ s.settled.demands = [] ∧
    (s.arrivals = [] → s.demands = [] → s.settled = s)) ∧
  (∀ s : State, s.settings = none → takeArrivals s = s.withArrivals []) ∧
  (∀ (c : Settings) (s : State), s.settings = some c →
    takeArrivals s = s.arrivals.foldl (takeArrival c) (s.withArrivals []) ∧
    takeArrival c s .goodRun = Machine.goodRun c s ∧ takeArrival c s (.tick .arcContest) = arcTick c s ∧
    (∀ set, takeArrival c s (.verdicts set) = takeVerdicts c set s) ∧
    ∀ i, takeArrival c s (.tick (.fastCheck i)) = fastCheck c i s ∧ takeArrival c s (.tick (.zeroBand i)) = zeroBandSample i s) ∧
  (∀ s : State, endStep true s = s ∧ endStep false s = takeDemands s ∧ (takeDemands s).demands = [] ∧
    (takeDemands s).flg = s.flg ∧ (takeDemands s).adj = s.adj ∧ (takeDemands s).nvs = s.nvs ∧ (takeDemands s).abu = s.abu ∧
    ∀ i : StringIdx,
      let mine := s.demands.filter fun d => decide (d.string = i)
      (takeDemands s).path i = mine.foldl (fun p d => p.demanded s.nowMs d.reason d.steps) (s.path i) ∧
      (takeDemands s).hold i =
        if mine ≠ [] ∧ (s.path i).state = .closed then { s.hold i with closedSince := none } else s.hold i)

/-! ### Resets (R174, R175, R149, R161, R176) -/

/-- A reset leaves every block at the values its chapter gives: drives and relays dropped, runs, contests, tables, queues and
sessions empty. A SERVICE_RESTART comes when a taken RESTART's answer has been sent and no write runs (R181); before that the command
lets time pass (assumption log 2). What was on its way is taken before the reset (assumption log 6). -/
def Obligations.ResetsPutEveryBlockAtItsResetValues : Prop :=
  (∀ (c : Instr) (start : State) (level : Bool),
    (c = .powerOn level ∨ c = .supplyDip level ∨
      ∃ dt sent, c = .serviceRestart dt level ∧ start.settled.svl.restart = some sent ∧ sent ≤ start.timeUs + dt ∧
        start.settled.nvs.write = none) →
    ∃ t, exec c start = .next t ∧ t.timeUs = 0 ∧ t.boxTrip = false ∧ t.requests = [] ∧ t.arrivals = [] ∧ t.demands = []
      ∧ (∀ i, t.path i = ⟨.isolated, 0, none, none, none, some .startup, none⟩)
      ∧ (∀ i, t.adjOf i = ⟨0, 0, none, 0, none⟩)
      ∧ t.acu = ⟨0, none, .idle, [], false⟩
      ∧ t.ptb = ⟨[], 0⟩
      ∧ (∀ i : StringIdx, t.rfu.strings[i] = ⟨0, none, none⟩) ∧ (∀ g : Fin 8, t.rfu.groups[g] = none)
      ∧ t.abu.rx = .gapWait ∧ t.abu.tx = .empty ∧ t.abu.queue = [] ∧ t.abu.tally = ⟨0, 0, 0, 0, 0, 0, 0⟩ ∧ t.abu.silent = false
      ∧ t.svl.session = .none ∧ t.svl.loadedPage = 0 ∧ t.nvs.buffer = List.replicate 64 0xFF ∧ t.nvs.pendingMask = false
      ∧ (∀ i : StringIdx, t.sfe.currents[i] = 0 ∧ t.sfe.voltages[i] = 0 ∧ t.sfe.shares[i] = 0 ∧ t.wac.sums[i] = 0 ∧ t.wac.means[i] = 0
          ∧ t.wac.closedThroughout[i] = true)
      ∧ t.sfe.total = 0 ∧ t.sfe.bus = 0 ∧ t.sfe.score = 0 ∧ t.sfe.nextTick = 10000
      ∧ t.wac.boxSum = 0 ∧ t.wac.count = 0 ∧ t.wac.pathChanged = false ∧ t.wac.windowNumber = 0
      ∧ t.wac.boxValid = true ∧ t.wac.mismatchRun = 0 ∧ t.wac.matchRun = 0) ∧
  ∀ (dt : Nat) (start : State) (level : Bool),
    (∀ sent, start.settled.svl.restart = some sent → start.timeUs + dt < sent) ∨ start.settled.nvs.write ≠ none →
    exec (.serviceRestart dt level) start = .next (start.settled.elapse dt)

/-- The fault log across the three resets (the table of R161). -/
def Obligations.FaultLogAcrossResets : Prop :=
  ∀ (start : State) (level : Bool),
    let s := start.settled
    (∀ c, c = Instr.powerOn level ∨ c = Instr.supplyDip level →
      ∃ t, exec c start = .next t ∧ t.flg.records = [] ∧ t.flg.nextSeq = 1 ∧ t.flg.lost = 0 ∧ t.indicator = false) ∧
    (∀ dt sent, s.svl.restart = some sent → sent ≤ s.timeUs + dt → s.nvs.write = none →
      ∃ t, exec (.serviceRestart dt level) start = .next t
        ∧ t.flg.records = s.flg.records.map (fun r => { r with declared := none })
        ∧ t.flg.nextSeq = s.flg.nextSeq ∧ t.flg.lost = s.flg.lost ∧ t.indicator = s.indicator)

/-- The settings load after each of the three resets (R175, R6): the first field that fails decides between RUN with the record's
settings and UNCOMMISSIONED; the reset kind is recorded; the first window opens in RUN; each of the thirteen trim pairs in use is the
factory page's, or the neutral pair where either trim is out of range. The store is the one before the reset, with a write in progress
cut off. -/
def Obligations.SettingsLoadDecidesTheMode : Prop :=
  ∀ (start : State) (level : Bool) (c : Instr) (kind : ResetKind),
    let s := start.settled
    (c = .powerOn level ∧ kind = .powerOn) ∨ (c = .supplyDip level ∧ kind = .supplyDip) ∨
      (kind = .serviceRestart ∧ ∃ dt sent, c = .serviceRestart dt level ∧ s.svl.restart = some sent ∧ sent ≤ s.timeUs + dt ∧
        s.nvs.write = none) →
    let m := (cutOff s.nvs).store
    let inUse := fun (k : Nat) (trim : Trim) =>
      let offset := (Memory.read m (192 + k)).toInt
      let gain := (Memory.read m (192 + k + 1)).toNat * 256 + (Memory.read m (192 + k + 2)).toNat
      (-64 ≤ offset ∧ offset ≤ 63 ∧ 960 ≤ gain ∧ gain ≤ 1088 → trim = ⟨offset, gain, false⟩) ∧
      (¬ (-64 ≤ offset ∧ offset ≤ 63 ∧ 960 ≤ gain ∧ gain ≤ 1088) → trim = ⟨0, 1024, true⟩)
    (s.nvs.write = none → m = s.nvs.store) ∧
    ∃ t, exec c start = .next t ∧ t.nvs.lastReset = kind ∧ t.nvs.offending = offendingField m ∧ t.nvs.sealSet = s.nvs.sealSet
      ∧ (offendingField m = 0 → t.mode = .run ∧ t.settings = some (settingsOf m)
          ∧ t.wac.countdown = some ((settingsOf m).sampleInterval / 10))
      ∧ (offendingField m ≠ 0 → t.mode = .uncommissioned ∧ t.settings = none ∧ t.wac.countdown = none
          ∧ (∀ i, (t.hold i).empty = true) ∧ t.nvs.write = none ∧ t.nvs.store = m ∧ t.hld.pageLost = false)
      ∧ (∀ i : StringIdx, inUse (3 * i.val) t.sfe.trims[i]) ∧ inUse 36 t.sfe.totalTrim

/-- The commissioning record (R175, R184): seventy fields are checked in order, each against its range, the facet group, weight and
action of a string that is not present not at all; the offending field is the first that fails, or 0; the settings are the fields of a
record that passes; bytes 92 to 127 are not read. -/
def Obligations.RecordFieldsAreCheckedInOrder : Prop :=
  (∀ m : Memory,
    let b := fun k => (Memory.read m k).toNat
    let w := fun k => b k * 256 + b (k + 1)
    let within := fun (lo hi n : Nat) => decide (lo ≤ n) && decide (n ≤ hi)
    let station : List Bool :=
      [decide (w 0 = 0x3C12), within 1 62 (b 2), within 0 15 (b 3), within 50 1000 (w 4) && decide (w 4 % 10 = 0), within 50 500 (w 6),
        within 50 500 (w 8), within 2 30 (b 10), within 2 15 (b 11), within 10 500 (w 12), within 50 500 (w 14), within 500 2000 (w 16),
        within 100 1000 (w 18), within 50 500 (w 20), within 1 16 (b 22), within 40 400 (w 23), within 1 240 (b 25), within 0 5 (b 26),
        within 1 24 (b 27), within 0 62 (b 28), within 0 62 (b 29), within 0 62 (b 30), within 0 62 (b 31)]
    let string : Nat → List Bool := fun n =>
      let absent := decide (b (32 + 5 * (n - 1)) ≠ 1)
      [decide (b (32 + 5 * (n - 1)) = 0 ∨ b (32 + 5 * (n - 1)) = 1),
        absent || within 0 7 (b (33 + 5 * (n - 1))) || decide (b (33 + 5 * (n - 1)) = 15),
        absent || within 500 1500 (w (34 + 5 * (n - 1))), absent || within 0 1 (b (36 + 5 * (n - 1)))]
    let passes : Nat → Bool := fun field =>
      if field ≤ 22 then station.getD (field - 1) true else (string ((field - 23) / 4 + 1)).getD ((field - 23) % 4) true
    (offendingField m = 0 ↔ ∀ field, 1 ≤ field → field ≤ 70 → passes field = true) ∧
    (∀ field, 1 ≤ field → field ≤ 70 →
      (offendingField m = field ↔ passes field = false ∧ ∀ k, 1 ≤ k → k < field → passes k = true)) ∧
    let c := settingsOf m
    c.station = b 2 ∧ c.feeder = b 3 ∧ c.sampleInterval = w 4 ∧ c.guardLow = w 6 ∧ c.guardHigh = w 8 ∧ c.persistence = b 10 ∧
    c.minContributors = b 11 ∧ c.darkFloor = w 12 ∧ c.reverseLimit = w 14 ∧ c.overcurrentLimit = w 16 ∧ c.arcThreshold = w 18 ∧
    c.contestWindow = w 20 ∧ c.rampSteps = b 22 ∧ c.voltageWindow = w 23 ∧ c.retryHold = b 25 ∧ c.retryBudget = b 26 ∧
    c.goodRun = b 27 ∧ c.operators = [b 28, b 29, b 30, b 31] ∧
    ∀ i : StringIdx, c.strings[i].present = decide (b (32 + 5 * i.val) = 1) ∧ c.strings[i].group = b (33 + 5 * i.val) ∧
      c.strings[i].weight = w (34 + 5 * i.val) ∧ (c.strings[i].action = .reportOnly ↔ b (36 + 5 * i.val) = 1)) ∧
  ∀ m n : Memory, (∀ a, a < 92 → Memory.read m a = Memory.read n a) → offendingField m = offendingField n ∧ settingsOf m = settingsOf n

/-- The start-up holds of a load in RUN after each of the three resets (R149): the stagger, the page's holds or, with a page that is not
good, LOCKOUT on every present string and a lockout page write, SHUTDOWN with the input asserted, nothing on a string that is not present.
That the load stands at uptime 0, so that a string's STARTUP ends at 5 s and 2 s more for each index, is the model's choice (assumption
log 20). -/
def Obligations.StartUpHoldsFollowTheLockoutPage : Prop :=
  ∀ (start : State) (level : Bool) (c : Instr),
    let s := start.settled
    (c = .powerOn level ∨ c = .supplyDip level ∨
      ∃ dt sent, c = .serviceRestart dt level ∧ s.svl.restart = some sent ∧ sent ≤ s.timeUs + dt ∧ s.nvs.write = none) →
    let m := (cutOff s.nvs).store
    let b := fun k => Memory.read m (128 + k)
    let good := b 0 = 0x3C ∧ b 1 = 0x27 ∧ [b 6, b 7] = be16 (crc16 [b 0, b 1, b 2, b 3, b 4, b 5]).toNat
    let lockouts := (b 2).toNat * 256 + (b 3).toNat
    let manuals := (b 4).toNat * 256 + (b 5).toNat
    offendingField m = 0 →
    ∃ t, exec c start = .next t ∧ t.hld.shutdown = level ∧ t.hld.input = level ∧ (t.hld.pageLost = true ↔ ¬ good)
      ∧ (good → t.nvs.write = none ∧ t.nvs.store = m)
      ∧ (¬ good → (∃ i, t.present i = true) →
          t.nvs.write = some ⟨.lockoutPage, 2, lockoutPageBytes t.lockoutMask t.manualMask, ms 6, false⟩)
      ∧ ∀ i : StringIdx,
          ((settingsOf m).strings[i].present = true →
            (t.hold i).startupUntil = some (ms (5000 + 2000 * i.val)) ∧ (t.hold i).shutdown = level
              ∧ ((t.hold i).lockout = true ↔ ¬ good ∨ lockouts.testBit i.val = true)
              ∧ ((t.hold i).manual = true ↔ good ∧ manuals.testBit i.val = true)
              ∧ (t.hold i).retryUntil = none ∧ (t.hold i).voltageRecheck = none ∧ (t.hold i).retryCount = 0 ∧ (t.hold i).suspect = false) ∧
          ((settingsOf m).strings[i].present = false → t.hold i = Hold.reset)

/-- A reset that arrives while a write runs cuts it off (R176, R151): a page 0 or 1 so left fails the load's check whatever the other
page holds, and the part starts UNCOMMISSIONED; a page 2 so left is not good, and a station that loads in RUN locks out every present
string; the other pages and the seal are left. What bytes such a page holds is free (assumption log 10). -/
def Obligations.WritesCutOffByAResetLeaveBadPages : Prop :=
  ∀ (start : State) (level : Bool) (c : Instr) (w : Write), c = .powerOn level ∨ c = .supplyDip level →
    let s := start.settled
    s.nvs.write = some w →
    ∃ t, exec c start = .next t ∧ t.nvs.sealSet = s.nvs.sealSet ∧
      let sameOutside := fun pages : List Nat => ∀ a, a / 64 ∉ pages → Memory.read t.nvs.store a = Memory.read s.nvs.store a
      let recordFails := fun page : Nat =>
        ∀ m, (∀ a, a / 64 = page → Memory.read m a = Memory.read t.nvs.store a) → offendingField m ≠ 0
      (w.kind = .program → w.page = 0 ∨ w.page = 1 →
        t.mode = .uncommissioned ∧ t.nvs.write = none ∧ sameOutside [w.page] ∧ recordFails w.page) ∧
      (w.kind = .erase →
        t.mode = .uncommissioned ∧ t.nvs.write = none ∧ sameOutside [0, 1, 2] ∧ recordFails 0 ∧ recordFails 1
          ∧ lockoutPageGood t.nvs.store = false) ∧
      (w.kind = .lockoutPage ∨ w.kind = .sealing →
        sameOutside [2] ∧ lockoutPageGood t.nvs.store = false ∧
          (offendingField s.nvs.store = 0 → t.mode = .run ∧ t.hld.pageLost = true ∧ ∀ i, t.present i = true → (t.hold i).lockout = true))

/-! ### The protection tick (R1 to R7, R9, R88 to R90, R100 to R112, R124, R126) -/

/-- A protection tick that is due writes the calibrated string currents (R2), box total (R3; with neutral trims its two limits),
voltages (R4), shares and score (R5), reads the shutdown input (R147), and sets the next tick 10 ms later (R1). -/
def Obligations.TickTakesEveryInput : Prop :=
  (∀ (dt : Nat) (raw : RawInputs) (order : TickOrder) (start : State),
    let s := start.arrive dt
    s.sfe.nextTick ≤ s.timeUs →
    ∃ t, exec (.protectionTick dt raw order) start = .next t
      ∧ (∀ i : StringIdx, t.sfe.currents[i] =
          max (-2000) (min 2000 ((((raw.currents[i].toNat : Int) - 2048 - s.sfe.trims[i].offset) * s.sfe.trims[i].gain).tdiv 1024)))
      ∧ t.sfe.total =
          max (-24000) (min 24000 ((((raw.total.toNat : Int) - 2048 - s.sfe.totalTrim.offset) * s.sfe.totalTrim.gain * 12).tdiv 1024))
      ∧ (s.sfe.totalTrim.offset = 0 → s.sfe.totalTrim.gain = 1024 →
          (raw.total = 4095 → t.sfe.total = 24000) ∧ (raw.total = 0 → t.sfe.total = -24000))
      ∧ (∀ i : StringIdx, t.sfe.voltages[i] = raw.voltages[i].toNat * 600 / 1024 ∧ t.sfe.voltages[i] ≤ 2399
          ∧ t.sfe.shares[i] = raw.shares[i].toNat)
      ∧ t.sfe.bus = raw.bus.toNat * 600 / 1024 ∧ t.sfe.bus ≤ 2399 ∧ t.sfe.score = raw.score.toNat ∧ t.hld.input = raw.shutdown
      ∧ t.sfe.nextTick = s.sfe.nextTick + 10000 ∧ t.sfe.trims = s.sfe.trims ∧ t.sfe.totalTrim = s.sfe.totalTrim) ∧
  (∀ (raw : BitVec 12) (offset : Int) (gain : Nat), -64 ≤ offset → offset ≤ 63 → 960 ≤ gain → gain ≤ 1088 →
    ((((raw.toNat : Int) - 2048 - offset) * gain).natAbs ≤ 2296768) ∧
      ((((raw.toNat : Int) - 2048 - offset) * gain).tdiv 1024).natAbs ≤ 2242) ∧
  (((4095 : Int) - 2048 - (-64)) * 1088 = 2296768 ∧ (((0 : Int) - 2048 - 63) * 1088 = -2296768) ∧ (2296768 : Int).tdiv 1024 = 2242)

/-- The frame of a protection tick: the settings, the peer table, the Reference unit, the requests, the service link, the tally's
receive counts VALID, CRC_DISCARD, BYTE_DISCARD and HEADER_IGNORED, the receive state, the window sums and means, and the shutdown level
as last taken are unchanged; in UNCOMMISSIONED so is every block but the inputs read; a tick before its time lets time pass. That the
window sample is a step of its own is assumption log 8, that a change of the shutdown input is taken by a step of its own assumption
log 22, a tick before its time assumption log 2. -/
def Obligations.TickFrame : Prop :=
  ∀ (dt : Nat) (raw : RawInputs) (order : TickOrder) (start t : State), exec (.protectionTick dt raw order) start = .next t →
    t.settings = start.settings ∧ t.ptb = start.ptb ∧ t.rfu = start.rfu ∧ t.requests = start.requests ∧ t.svl = start.svl
      ∧ t.hld.shutdown = start.hld.shutdown ∧ t.hld.pageLost = start.hld.pageLost
      ∧ t.wac.means = start.wac.means ∧ t.wac.sums = start.wac.sums ∧ t.wac.boxSum = start.wac.boxSum ∧ t.wac.count = start.wac.count
      ∧ t.wac.windowNumber = start.wac.windowNumber ∧ t.wac.boxValid = start.wac.boxValid
      ∧ t.abu.tally.valid = start.abu.tally.valid ∧ t.abu.tally.crcDiscard = start.abu.tally.crcDiscard
      ∧ t.abu.tally.byteDiscard = start.abu.tally.byteDiscard ∧ t.abu.tally.headerIgnored = start.abu.tally.headerIgnored
      ∧ t.abu.tally.collisions = start.abu.tally.collisions ∧ t.abu.tally.repliesSuperseded = start.abu.tally.repliesSuperseded
      ∧ t.abu.rx = start.abu.rx ∧ t.abu.taken = start.abu.taken ∧ t.abu.silent = start.abu.silent
      ∧ (∀ a, a / 64 ≠ 2 → Memory.read t.nvs.store a = Memory.read start.nvs.store a)
      ∧ (start.settings = none → (start.arrive dt).sfe.nextTick ≤ (start.arrive dt).timeUs →
          t = { takeArrivals (start.arrive dt) with sfe := t.sfe, hld := { (takeArrivals (start.arrive dt)).hld with input := t.hld.input } })
      ∧ ((start.arrive dt).timeUs < (start.arrive dt).sfe.nextTick → t = start.arrive dt)

/-- The fast-check runs and peaks of a string after a due tick in RUN or SILENT (the tables of R88, R89 and R90), whatever the order
of the tick's consumers: the record below is what R88 gives, and a run that reaches 3 returns to 0. A sample that is still on its way to
the Adjudicator leaves the record and waits (assumption log 6). -/
def Obligations.FastCheckRunsFollowTheSample : Prop :=
  ∀ (dt : Nat) (raw : RawInputs) (order : TickOrder) (start : State) (c : Settings) (i : StringIdx),
    let s := takeArrivals (start.arrive dt)
    s.settings = some c → s.sfe.nextTick ≤ s.timeUs →
    ∃ t, exec (.protectionTick dt raw order) start = .next t ∧ (t.adjOf i).strikes = (s.adjOf i).strikes ∧
      (.fastCheck i ∈ order.late → t.adjOf i = s.adjOf i ∧ .tick (.fastCheck i) ∈ t.arrivals) ∧
      (.fastCheck i ∉ order.late →
        let a := s.adjOf i
        let current := t.sfe.currents[i]
        let tested := (s.path i).state = .closed ∨ (s.path i).state = .closing
        let reverse := current ≤ -(c.reverseLimit : Int)
        let beyondOver := (c.overcurrentLimit : Int) ≤ current
        (tested → reverse → a.reverseRun < 2 →
          (t.adjOf i).reverseRun = a.reverseRun + 1 ∧ (t.adjOf i).overRun = 0 ∧ (t.adjOf i).overPeak = none
            ∧ (t.adjOf i).reversePeak = some (min (a.reversePeak.getD current) current)) ∧
        (tested → reverse → a.reverseRun = 2 →
          (t.adjOf i).reverseRun = 0 ∧ (t.adjOf i).reversePeak = none ∧ (t.adjOf i).overRun = 0 ∧ (t.adjOf i).overPeak = none) ∧
        (tested → ¬ reverse → beyondOver → a.overRun < 2 →
          (t.adjOf i).overRun = a.overRun + 1 ∧ (t.adjOf i).reverseRun = 0 ∧ (t.adjOf i).reversePeak = none
            ∧ (t.adjOf i).overPeak = some (max (a.overPeak.getD current) current)) ∧
        (tested → ¬ reverse → beyondOver → a.overRun = 2 →
          (t.adjOf i).overRun = 0 ∧ (t.adjOf i).overPeak = none ∧ (t.adjOf i).reverseRun = 0 ∧ (t.adjOf i).reversePeak = none) ∧
        ((¬ tested ∨ (¬ reverse ∧ ¬ beyondOver)) →
          (t.adjOf i).reverseRun = 0 ∧ (t.adjOf i).reversePeak = none ∧ (t.adjOf i).overRun = 0 ∧ (t.adjOf i).overPeak = none))

/-- The third sample in a row beyond a limit declares the fault (R89): a record with the run's peak, LOCKOUT on a present string, and an
open demand with the ramp steps setting (R91, R92). First of the one fast check, whatever else the tick brings; then of the tick as a
whole, in which every string may declare. The open demand acts at the end of the step or is still on its way (assumption log 6). -/
def Obligations.ThirdFastSampleDeclares : Prop :=
  let due := fun (c : Settings) (a : AdjRecord) (current : Int) (cause : Cause) (peak : Int) =>
    (cause = .reverseCurrent ∧ current ≤ -(c.reverseLimit : Int) ∧ a.reverseRun = 2 ∧ peak = min (a.reversePeak.getD current) current) ∨
    (cause = .overcurrent ∧ ¬ current ≤ -(c.reverseLimit : Int) ∧ (c.overcurrentLimit : Int) ≤ current ∧ a.overRun = 2
      ∧ peak = max (a.overPeak.getD current) current)
  (∀ (c : Settings) (i : StringIdx) (s : State) (cause : Cause) (peak : Int), s.settings = some c →
    (s.path i).state = .closed ∨ (s.path i).state = .closing → due c (s.adjOf i) s.sfe.currents[i] cause peak →
    let t := fastCheck c i s
    (∃ r, t.flg.records.getLast? = some r ∧ r.string = i ∧ r.cause = cause ∧ r.detail = peak ∧ r.reference = none
      ∧ r.contributors = none ∧ r.outcome = .isolated ∧ r.ackBy = none ∧ r.seconds = s.seconds ∧ r.seq = s.flg.nextSeq)
    ∧ t.demands = s.demands ++ [⟨i, .fault cause, c.rampSteps⟩] ∧ t.paths = s.paths
    ∧ (c.strings[i].present = true → (t.hold i).lockout = true)
    ∧ (∀ j, j ≠ i → t.hold j = s.hold j ∧ t.adjOf j = s.adjOf j)) ∧
  ∀ (dt : Nat) (raw : RawInputs) (order : TickOrder) (start : State) (c : Settings),
    let s := takeArrivals (start.arrive dt)
    s.settings = some c → s.sfe.nextTick ≤ s.timeUs →
    ∃ u, exec (.protectionTick dt raw order) start = .next (endStep order.demandsWait u) ∧
      ∀ (i : StringIdx) (cause : Cause) (peak : Int), (s.path i).state = .closed ∨ (s.path i).state = .closing →
        .fastCheck i ∉ order.late → due c (s.adjOf i) u.sfe.currents[i] cause peak →
        (∃ r ∈ u.flg.records, r.string = i ∧ r.cause = cause ∧ r.detail = peak ∧ r.reference = none ∧ r.contributors = none
          ∧ r.outcome = .isolated ∧ r.ackBy = none ∧ r.seconds = s.seconds ∧ r.declared = some s.nowMs)
        ∧ (c.strings[i].present = true → (u.hold i).lockout = true)
        ∧ u.path i = s.path i
        ∧ u.demands.filter (fun d => decide (d.string = i)) =
            s.demands.filter (fun d => decide (d.string = i)) ++ [⟨i, .fault cause, c.rampSteps⟩]
        ∧ ((∀ d ∈ s.demands, d.string ≠ i) →
            let p := (endStep false u).path i
            p.state = .opening ∧ p.reason = some (.fault cause) ∧ p.stepCount = some c.rampSteps ∧ p.isolationStart = some s.nowMs
              ∧ p.deadline = some (s.nowMs + ms 2))

/-- A sample in the zero band, taken in CONFIRMING or STUCK, sends the string to PARTING; a sample outside it changes nothing
(R124, R126); one that is still on its way to the sequencer has changed nothing yet (assumption log 6). That
the path change mark is set in the step of the change is the model's choice (assumption log 37). -/
def Obligations.ZeroBandSampleSendsToParting : Prop :=
  ∀ (dt : Nat) (raw : RawInputs) (order : TickOrder) (start : State) (c : Settings) (i : StringIdx),
    let s := takeArrivals (start.arrive dt)
    s.settings = some c → s.sfe.nextTick ≤ s.timeUs → (s.path i).state = .confirming ∨ (s.path i).state = .stuck →
    ∃ t, exec (.protectionTick dt raw order) start = .next t
      ∧ (.zeroBand i ∉ order.late → -20 ≤ t.sfe.currents[i] → t.sfe.currents[i] ≤ 20 →
          t.path i = { s.path i with state := .parting, deadline := some (s.nowMs + ms 30) } ∧ t.wac.pathChanged = true)
      ∧ (¬ (-20 ≤ t.sfe.currents[i] ∧ t.sfe.currents[i] ≤ 20) → t.path i = s.path i)
      ∧ (.zeroBand i ∈ order.late → t.path i = s.path i ∧ .tick (.zeroBand i) ∈ t.arrivals)

/-- The Arc contest unit after a due tick in RUN or SILENT: the alarm run and the run peak (the table of R100), and the contest record in
each of its states (R105, R108 to R112) with its claim (R107) and the latch (R115). The best rival at an opening is the strongest of the
list (R106). A set that is still on its way to the unit has changed nothing yet (assumption log 6). -/
def Obligations.ArcContestFollowsTheTick : Prop :=
  ∀ (dt : Nat) (raw : RawInputs) (order : TickOrder) (start : State) (c : Settings),
    let s := takeArrivals (start.arrive dt)
    s.settings = some c → s.sfe.nextTick ≤ s.timeUs → s.acu.alarmRun ≤ 3 →
    ∃ t, exec (.protectionTick dt raw order) start = .next t ∧
      let tick : Peak := ⟨t.sfe.score, t.sfe.shares⟩
      let loud := c.arcThreshold < t.sfe.score
      let unchanged := t.abu = s.abu ∧ t.acu.latch = s.acu.latch ∧ t.boxTrip = s.boxTrip
      let opens := fun (round : Nat) (p : Peak) =>
        (∀ i, chooseString p.shares s.arcCandidate = some i → t.acu.latch = s.acu.latch ∧ t.boxTrip = s.boxTrip
          ∧ t.abu = (if s.abu.silent then s.abu else
              s.abu.offerSingle c s.timeUs .arcClaim [byteOf round, 1, byteOf (p.score / 256), byteOf p.score, byteOf (i.val + 1)])
          ∧ ∃ best, t.acu.contest = .contest round p i (s.nowMs + ms c.contestWindow) best ∧ (best = none ↔ s.acu.rivals = [])
            ∧ ∀ b, best = some b → (∃ r ∈ s.acu.rivals, r.station = b.station ∧ r.score = b.score) ∧
                ∀ r ∈ s.acu.rivals, r.score < b.score ∨ (r.score = b.score ∧ b.station ≤ r.station)) ∧
        (chooseString p.shares s.arcCandidate = none →
          t.acu.contest = .idle ∧ t.acu.latch = true ∧ (s.acu.latch = false → t.boxTrip = true) ∧ t.abu = s.abu)
      (.arcContest ∈ order.late → t.acu = s.acu ∧ t.abu = s.abu ∧ t.boxTrip = s.boxTrip ∧ .tick .arcContest ∈ t.arrivals) ∧
      (.arcContest ∉ order.late →
        t.acu.rivals = s.acu.rivals ∧
        (¬ loud → t.acu.alarmRun = 0 ∧ t.acu.runPeak = none) ∧
        (loud → (s.acu.alarmRun = 0 → t.acu.alarmRun = 1 ∧ t.acu.runPeak = some tick) ∧
          (1 ≤ s.acu.alarmRun → t.acu.alarmRun = min 3 (s.acu.alarmRun + 1) ∧
            ∀ p, s.acu.runPeak = some p → t.acu.runPeak = some (if p.score < tick.score then tick else p))) ∧
        (s.acu.contest = .idle → t.acu.alarmRun < 3 → t.acu.contest = .idle ∧ unchanged) ∧
        (s.acu.contest = .idle → t.acu.alarmRun = 3 → ∀ p, t.acu.runPeak = some p → opens 1 p) ∧
        (∀ n own chosen windowEnd best, s.acu.contest = .contest n own chosen windowEnd best → unchanged ∧
          (own.score < t.sfe.score → t.acu.contest = .contest n tick ((chooseString t.sfe.shares s.arcCandidate).getD chosen) windowEnd best) ∧
          (t.sfe.score ≤ own.score → t.acu.contest = s.acu.contest)) ∧
        (∀ n resolution quiet, s.acu.contest = .yielded n resolution quiet →
          (resolution ≠ none ∨ t.acu.alarmRun < 3 → unchanged ∧
            t.acu.contest = .yielded n resolution (if loud then none else some (quiet.getD s.nowMs))) ∧
          (resolution = none → t.acu.alarmRun = 3 → opens 2 tick)) ∧
        (∀ d, s.acu.contest = .settle d → t.acu.contest = .settle d ∧ unchanged))

/-- The choice of R101: a candidate with the greatest share, the lowest index among equals; no choice exactly without a candidate. The
candidates are the present strings in CLOSED or CLOSING, and those of the winning replacement of R108 the present strings in CLOSED. -/
def Obligations.ChoiceTakesTheGreatestShare : Prop :=
  (∀ (shares : PerString Nat) (candidate : StringIdx → Bool),
    (chooseString shares candidate = none ↔ ∀ i, candidate i = false) ∧
    (∀ i, chooseString shares candidate = some i ↔
      candidate i = true ∧ ∀ j, candidate j = true → shares[j] < shares[i] ∨ (shares[j] = shares[i] ∧ i ≤ j))) ∧
  ∀ (s : State) (i : StringIdx),
    let present := ∃ c, s.settings = some c ∧ c.strings[i].present = true
    (s.arcCandidate i = true ↔ present ∧ ((s.path i).state = .closed ∨ (s.path i).state = .closing)) ∧
    (s.replacementCandidate i = true ↔ present ∧ (s.path i).state = .closed)

/-! ### Measurement windows (R9 to R18, R51, R52, R54 to R56, R60 to R78, R83, R84, R144) -/

/-- The countdown of window-sample ticks (R9): each due tick takes one off, and the tick that brings it to 0 is a window-sample tick and
returns it to k. A due window sample adds every current and the box total, counts one, and clears the closed-throughout flag of every
string that is not CLOSED (R10, R11); with the 64th the window's flags and mark stand, and a path change after it belongs to the next
window (R12, R14). That the sample is a step of its own is assumption log 8. -/
def Obligations.WindowSampleAddsEveryCurrent : Prop :=
  (∀ (dt : Nat) (raw : RawInputs) (order : TickOrder) (start : State) (c : Settings),
    let s := start.arrive dt
    s.settings = some c → s.sfe.nextTick ≤ s.timeUs →
    ∃ t, exec (.protectionTick dt raw order) start = .next t ∧
      (s.wac.countdown = none → t.wac.countdown = none ∧ t.wac.sampleDue = s.wac.sampleDue) ∧
      (∀ n, s.wac.countdown = some n → 2 ≤ n → t.wac.countdown = some (n - 1) ∧ t.wac.sampleDue = s.wac.sampleDue) ∧
      (∀ n, s.wac.countdown = some n → n ≤ 1 → t.wac.countdown = some (c.sampleInterval / 10) ∧ t.wac.sampleDue = true)) ∧
  ∀ (dt : Nat) (start : State),
    let s := start.arrive dt
    (s.wac.sampleDue = false ∨ 64 ≤ s.wac.count → exec (.windowSample dt) start = .next s) ∧
    (s.wac.sampleDue = true → s.wac.count < 64 →
      ∃ (sums : PerString Int) (closed : PerString Bool),
        let added : Wac := { s.wac with sums := sums, boxSum := s.wac.boxSum + s.sfe.total, count := s.wac.count + 1, sampleDue := false }
        (s.wac.count < 63 → exec (.windowSample dt) start = .next (s.withWac { added with closedThroughout := closed })) ∧
        (s.wac.count = 63 → exec (.windowSample dt) start = .next (s.withWac { added with
          endedClosed := closed, endedChanged := s.wac.pathChanged
          closedThroughout := Vector.replicate 12 true, pathChanged := false })) ∧
        ∀ i : StringIdx, sums[i] = s.wac.sums[i] + s.sfe.currents[i]
          ∧ (closed[i] = true ↔ s.wac.closedThroughout[i] = true ∧ (s.path i).state = .closed))

/-- The window close forms the means with ties away from zero, advances the window number modulo 65536 and opens the next window with
its sums and count at 0 (R13, R14). The box measurement and its two runs follow the tables of R15 and R16: no check with the path-change
mark set, else a match when the difference is at most the larger of 20 and 3 % of the box mean, truncated. -/
def Obligations.WindowCloseFormsMeansAndChecksTheBox : Prop :=
  ∀ (dt : Nat) (order : CloseOrder) (start : State) (c : Settings),
    let s := start.arrive dt
    s.settings = some c → s.wac.count = 64 → s.wac.mismatchRun ≤ 1 → s.wac.matchRun ≤ 1 →
    ∃ t, exec (.windowClose dt order) start = .next t ∧ t.wac.windowNumber = s.wac.windowNumber + 1 ∧ t.wac.count = 0
      ∧ t.wac.boxSum = 0 ∧ t.wac.countdown = s.wac.countdown
      ∧ (∀ i : StringIdx, t.wac.sums[i] = 0
          ∧ (2 * t.wac.means[i] * 64 - 2 * s.wac.sums[i]).natAbs ≤ 64
          ∧ ((2 * t.wac.means[i] * 64 - 2 * s.wac.sums[i]).natAbs = 64 → s.wac.sums[i].natAbs < (t.wac.means[i] * 64).natAbs)) ∧
      let boxMean := roundDiv s.wac.boxSum 64
      let sum := t.wac.means.toList.sum
      let isMatch := (sum - boxMean).natAbs ≤ max 20 (boxMean.natAbs * 30 / 1000)
      let changed := s.wac.endedChanged = true
      let after := (t.wac.boxValid, t.wac.mismatchRun, t.wac.matchRun)
      (changed → after = (s.wac.boxValid, s.wac.mismatchRun, s.wac.matchRun)) ∧
      (¬ changed → s.wac.boxValid = true → isMatch → after = (true, 0, s.wac.matchRun)) ∧
      (¬ changed → s.wac.boxValid = true → ¬ isMatch → s.wac.mismatchRun = 0 → after = (true, 1, s.wac.matchRun)) ∧
      (¬ changed → s.wac.boxValid = true → ¬ isMatch → s.wac.mismatchRun = 1 → after = (false, 0, 0)) ∧
      (¬ changed → s.wac.boxValid = false → ¬ isMatch → after = (false, s.wac.mismatchRun, 0)) ∧
      (¬ changed → s.wac.boxValid = false → isMatch → s.wac.matchRun = 0 → after = (false, s.wac.mismatchRun, 1)) ∧
      (¬ changed → s.wac.boxValid = false → isMatch → s.wac.matchRun = 1 → after = (true, 0, 0))

/-- The group records at a close, for each of the groups 0 to 7: the own contributors are the group's present strings that were closed
throughout and stand at no strike, with the box measurement VALID (R63), and the list adds the medians of the fresh peers (R52, R65). The
reference is the median of the list, or UNAVAILABLE with fewer contributors than the minimum or none (R66, R67); the dark flag is set for
a reference below the floor (R68); a group without a present string has no record. A reference asked for where there is no record reads
UNAVAILABLE with count 0 (R68). The list is taken in ascending order. -/
def Obligations.ReferenceIsTheMedianOfTheContributors : Prop :=
  (∀ (dt : Nat) (order : CloseOrder) (start : State) (c : Settings),
    let s := start.arrive dt
    s.settings = some c → s.wac.count = 64 →
    ∃ t, exec (.windowClose dt order) start = .next t ∧ ∀ g : Fin 8,
      let own := (StringIdx.all.filter fun i => c.strings[i].present && decide (c.strings[i].group = g.val) && s.wac.endedClosed[i]
        && decide ((s.adjOf i).strikes = 0) && t.wac.boxValid).map fun i => roundDiv (t.wac.means[i] * 1000) c.strings[i].weight
      let peers := t.ptb.entries.filterMap fun e =>
        if e.lastDigest.any (fun m => decide (since s.nowMs m ≤ 2 * (64 * c.sampleInterval))) then
          (e.groups.find? fun q => decide (q.group = g.val)).bind fun q => if q.valid = true ∧ 1 ≤ q.count then q.median else none
        else none
      ((∃ i : StringIdx, c.strings[i].present = true ∧ c.strings[i].group = g.val) →
        t.rfu.groups[g] = some (groupRecordOfList c.minContributors c.darkFloor (own ++ peers))) ∧
      ((∀ i : StringIdx, c.strings[i].present = true → c.strings[i].group ≠ g.val) → t.rfu.groups[g] = none)) ∧
  (∀ (r : Rfu) (g : Fin 8), (r.groups[g] = none → r.asked g.val = ⟨0, none, false⟩) ∧
    ∀ record, r.groups[g] = some record → r.asked g.val = record) ∧
  ∀ (minContributors darkFloor : Nat) (l sorted : List Int), sorted.Perm l → sorted.Pairwise (· ≤ ·) →
    let r := groupRecordOfList minContributors darkFloor l
    let middle := (sorted.getD (l.length / 2 - 1) 0 + sorted.getD (l.length / 2) 0).tdiv 2
    r.contributors = l.length ∧
    (l.length < minContributors ∨ l.length = 0 → r.reference = none ∧ r.dark = false) ∧
    (minContributors ≤ l.length → l.length % 2 = 1 →
      r.reference = some (sorted.getD (l.length / 2) 0) ∧ r.dark = decide (sorted.getD (l.length / 2) 0 < darkFloor)) ∧
    (minContributors ≤ l.length → l.length ≠ 0 → l.length % 2 = 0 → r.reference = some middle ∧ r.dark = decide (middle < darkFloor))

/-- The verdict, normalized value and deviation written at a close (R61, R69, R74, R77): the first condition of R69 that holds
decides, and the deviation is present exactly with FULL. A string that is not present is not written. -/
def Obligations.CloseWritesVerdictsAndDeviations : Prop :=
  ∀ (dt : Nat) (order : CloseOrder) (start : State) (c : Settings),
    let s := start.arrive dt
    s.settings = some c → s.wac.count = 64 →
    ∃ t, exec (.windowClose dt order) start = .next t ∧ ∀ i : StringIdx,
      let own := c.strings[i]
      let n := roundDiv (t.wac.means[i] * 1000) own.weight
      let r := t.rfu.strings[i]
      (own.present = false → r = s.rfu.strings[i]) ∧
      (own.present = true → r.normalized = n) ∧
      (own.present = true → t.wac.boxValid = false → r.verdict = some .held ∧ r.deviation = none) ∧
      (own.present = true → own.group = 15 → r.verdict = some .held ∧ r.deviation = none) ∧
      (own.present = true → t.wac.boxValid = true → s.wac.endedClosed[i] = false → own.group ≠ 15 →
        r.verdict = some .partialWindow ∧ r.deviation = none) ∧
      (∀ (h : own.group < 8) (record : GroupRecord), own.present = true → t.wac.boxValid = true →
        s.wac.endedClosed[i] = true → t.rfu.groups[own.group] = some record →
        (record.reference = none → r.verdict = some .held ∧ r.deviation = none) ∧
        (∀ ref, record.reference = some ref → record.dark = true → r.verdict = some .dark ∧ r.deviation = none) ∧
        (∀ ref, record.reference = some ref → record.dark = false →
          r.verdict = some .full ∧ r.deviation = some (max (-1000) (min 1000 (((n - ref) * 1000).tdiv ref)))))

/-- The Adjudicator's handling of the verdict set (the tables of R83 and R84), first of one entry and then of a close, whose set it takes
in the step or later (R85; assumption log 6). A count raised to P declares a performance fault whose record carries the entry's
deviation, reference and contributor count, and returns to 0; with ISOLATE it sends an open demand. -/
def Obligations.VerdictChangesTheStrikeCount : Prop :=
  (∀ (c : Settings) (i : StringIdx) (s : State),
    (takeVerdict c ⟨i, .dark⟩ s = s ∧ takeVerdict c ⟨i, .held⟩ s = s) ∧
    (takeVerdict c ⟨i, .partialWindow⟩ s = s.setAdj i { s.adjOf i with strikes := 0 }) ∧
    (∀ (d ref : Int) (n : Nat),
      let t := takeVerdict c ⟨i, .full d ref n⟩ s
      let cause : Cause := if d < 0 then .lowOutput else .highOutput
      (-(c.guardLow : Int) ≤ d → d ≤ c.guardHigh → t = s.setAdj i { s.adjOf i with strikes := 0 }) ∧
      (d < -(c.guardLow : Int) ∨ (c.guardHigh : Int) < d → (s.adjOf i).strikes + 1 < c.persistence →
        t = s.setAdj i { s.adjOf i with strikes := (s.adjOf i).strikes + 1 }) ∧
      (d < -(c.guardLow : Int) ∨ (c.guardHigh : Int) < d → c.persistence ≤ (s.adjOf i).strikes + 1 →
        t.adjOf i = { s.adjOf i with strikes := 0 } ∧ t.paths = s.paths ∧
        (∃ r, t.flg.records.getLast? = some r ∧ r.string = i ∧ r.cause = cause
          ∧ r.detail = d ∧ r.reference = some ref ∧ r.contributors = some n ∧ r.ackBy = none ∧ r.seq = s.flg.nextSeq
          ∧ r.outcome = (if c.strings[i].action = .reportOnly then .reported else .isolated)) ∧
        (c.strings[i].action = .reportOnly → t.hold i = s.hold i ∧ t.demands = s.demands) ∧
        (c.strings[i].action = .isolate → t.demands = s.demands ++ [⟨i, .fault cause, c.rampSteps⟩])))) ∧
  ∀ (dt : Nat) (order : CloseOrder) (start : State) (c : Settings),
    let s := start.arrive dt
    s.settings = some c → s.wac.count = 64 →
    ∃ u, exec (.windowClose dt order) start = .next (endStep order.demandsWait u) ∧
      (order.verdictsWait = true → u.adj = s.adj ∧ u.flg = s.flg ∧ u.demands = s.demands ∧
        ∃ set, u.arrivals = s.arrivals ++ (if order.holdsFirst then [.goodRun, .verdicts set] else [.verdicts set, .goodRun]) ∧
          set.map VerdictEntry.string = StringIdx.all.filter (fun i => c.strings[i].present) ∧
          ∀ e ∈ set, u.rfu.strings[e.string].verdict = some e.judgement.verdict ∧ u.rfu.strings[e.string].deviation = e.judgement.deviation) ∧
      (order.verdictsWait = false → u.arrivals = s.arrivals ∧ ∀ i : StringIdx,
        let r := u.rfu.strings[i]
        let a := s.adjOf i
        let mine := fun l : List Demand => l.filter fun d => decide (d.string = i)
        (c.strings[i].present = false → u.adjOf i = a ∧ mine u.demands = mine s.demands) ∧
        (c.strings[i].present = true → r.verdict = some .partialWindow → u.adjOf i = { a with strikes := 0 } ∧ mine u.demands = mine s.demands) ∧
        (c.strings[i].present = true → r.verdict = some .dark ∨ r.verdict = some .held → u.adjOf i = a ∧ mine u.demands = mine s.demands) ∧
        (∀ d, c.strings[i].present = true → r.verdict = some .full → r.deviation = some d →
          let strike := d < -(c.guardLow : Int) ∨ (c.guardHigh : Int) < d
          let cause : Cause := if d < 0 then .lowOutput else .highOutput
          (¬ strike → u.adjOf i = { a with strikes := 0 } ∧ mine u.demands = mine s.demands) ∧
          (strike → a.strikes + 1 < c.persistence → u.adjOf i = { a with strikes := a.strikes + 1 } ∧ mine u.demands = mine s.demands) ∧
          (strike → c.persistence ≤ a.strikes + 1 → u.adjOf i = { a with strikes := 0 } ∧
            mine u.demands = mine s.demands ++ (if c.strings[i].action = .reportOnly then [] else [⟨i, .fault cause, c.rampSteps⟩]) ∧
            ∃ q ∈ u.flg.records, q.string = i ∧ q.cause = cause ∧ q.detail = d ∧ q.ackBy = none ∧ q.seconds = s.seconds
              ∧ q.declared = some s.nowMs ∧ q.outcome = (if c.strings[i].action = .reportOnly then .reported else .isolated)
              ∧ ∀ (_ : c.strings[i].group < 8) (record : GroupRecord), u.rfu.groups[c.strings[i].group] = some record →
                  q.reference = record.reference ∧ q.contributors = some record.contributors)))

/-- The peer table at a window close (R51): an entry heard more than four window lengths ago is removed, one with a stale digest loses
its last-digest time, and every other is left. -/
def Obligations.PeersAgeAtTheWindowClose : Prop :=
  ∀ (dt : Nat) (order : CloseOrder) (start : State) (c : Settings),
    let s := start.arrive dt
    s.settings = some c → s.wac.count = 64 →
    ∃ t, exec (.windowClose dt order) start = .next t ∧ t.ptb.overflow = s.ptb.overflow ∧
      let window := 64 * c.sampleInterval
      t.ptb.entries = s.ptb.entries.filterMap fun e =>
        if 4 * window < since s.nowMs e.lastHeard then none
        else match e.lastDigest with
          | none => some e
          | some d => if since s.nowMs d ≤ 2 * window then some e else some { e with lastDigest := none }

/-- The own digest at a window close in RUN (R54, R55): one entry, in ascending order, for each group 0 to 7 with a present string,
with the count and the median of the own contributors alone and the box measurement; with a digest queued its body is replaced in place,
otherwise a new entry with destination 0 goes to the back of a queue with room, where it begins a deferral on a quiet line (the draw is
free, assumption log 9), and a full queue refuses it; in SILENT nothing is offered (R56; the order in which the mode reaches the blocks is
the model's choice, assumption log 30). The bytes of a DIGEST body (section 12.2) are the window number, the count of entries, and for
each entry group, count, flags and median, 0 where it is absent; the flag bits that the section leaves to be ignored are sent as 0
(assumption log 32). The median is that of the list in ascending order. -/
def Obligations.WindowCloseOffersTheDigest : Prop :=
  (∀ (l sorted : List Int), sorted.Perm l → sorted.Pairwise (· ≤ ·) →
    (l.length % 2 = 1 → median l = sorted.getD (l.length / 2) 0) ∧
    (l.length % 2 = 0 → l ≠ [] → median l = (sorted.getD (l.length / 2 - 1) 0 + sorted.getD (l.length / 2) 0).tdiv 2)) ∧
  (∀ (window : BitVec 16) (groups : List GroupEntry), groups.length ≤ 8 →
    let body := digestBody window groups
    let byte := fun k => (body.getD k 0).toNat
    body.length = 3 + 5 * groups.length ∧ byte 0 * 256 + byte 1 = window.toNat ∧ byte 2 = groups.length ∧
    ∀ (k : Nat) (g : GroupEntry), groups[k]? = some g → g.group ≤ 7 → g.count ≤ 12 → -4000 ≤ g.median.getD 0 → g.median.getD 0 ≤ 4000 →
      byte (3 + 5 * k) = g.group ∧ byte (4 + 5 * k) = g.count ∧
      ((byte (5 + 5 * k)).testBit 0 = true ↔ g.valid = true) ∧ ((byte (5 + 5 * k)).testBit 1 = true ↔ g.median ≠ none) ∧
      byte (5 + 5 * k) ≤ 3 ∧ (BitVec.ofNat 16 (byte (6 + 5 * k) * 256 + byte (7 + 5 * k))).toInt = g.median.getD 0) ∧
  ∀ (dt : Nat) (order : CloseOrder) (start : State) (c : Settings),
    let s := start.arrive dt
    s.settings = some c → s.wac.count = 64 →
    ∃ t, exec (.windowClose dt order) start = .next t ∧
      let own : Nat → List Int := fun g =>
        (StringIdx.all.filter fun i => c.strings[i].present && decide (c.strings[i].group = g) && s.wac.endedClosed[i]
          && decide ((s.adjOf i).strikes = 0) && t.wac.boxValid).map fun i => roundDiv (t.wac.means[i] * 1000) c.strings[i].weight
      let groups : List GroupEntry :=
        ([0, 1, 2, 3, 4, 5, 6, 7].filter fun g =>
          StringIdx.all.any fun i => c.strings[i].present && decide (c.strings[i].group = g)).map fun g =>
            ⟨g, (own g).length, if own g = [] then none else some (median (own g)), t.wac.boxValid⟩
      let body := digestBody (s.wac.windowNumber + 1) groups
      let entry : TxEntry := ⟨.digest, 0, body, 0, false, false⟩
      let queued := ∃ e ∈ s.abu.queue, e.kind = .digest
      (s.abu.silent = true → t.abu = s.abu) ∧
      (s.abu.silent = false → queued →
        t.abu = { s.abu with queue := s.abu.queue.map fun e =>
          if e.kind = .digest then { e with body := body, attempts := 0, replaced := e.inFlight } else e }) ∧
      (s.abu.silent = false → ¬ queued → 8 ≤ s.abu.queue.length →
        t.abu = { s.abu with tally := { s.abu.tally with txDropped := satSucc 65535 s.abu.tally.txDropped } }) ∧
      (s.abu.silent = false → ¬ queued → s.abu.queue.length < 8 →
        (s.abu.tx ≠ .empty → t.abu = { s.abu with queue := s.abu.queue ++ [entry] }) ∧
        (s.abu.tx = .empty → s.abu.rx ≠ .ready → t.abu = { s.abu with queue := s.abu.queue ++ [entry], tx := .waiting }) ∧
        (s.abu.tx = .empty → s.abu.rx = .ready → s.abu.queue = [] →
          ∃ slots, 4 ≤ slots ∧ slots ≤ 19 ∧ t.abu = { s.abu with
            queue := [entry], tx := .deferring, deferral := some ⟨s.timeUs, slots⟩, draws := s.abu.draws + 1 }))

/-- The good run at a window close (R144): for a present CLOSED string, a strike restarts it, and a whole good run without one returns
the retry count to 0; every other string is left. First the Hold manager's own handling; then a close that declares nothing on the
string, with the strikes as the Hold manager finds them (before or after the verdict set, assumption log 7). -/
def Obligations.GoodRunRestoresTheBudget : Prop :=
  let examined := fun (c : Settings) (now : Ms) (strikes : Nat) (h g : Hold) =>
    (0 < strikes → g = { h with closedSince := some now }) ∧
    (strikes = 0 → ∀ t, h.closedSince = some t →
      (3600000 * c.goodRun ≤ since now t → g = { h with retryCount := 0 }) ∧ (since now t < 3600000 * c.goodRun → g = h))
  (∀ (c : Settings) (s : State) (i : StringIdx),
    let g := (Machine.goodRun c s).hold i
    ((s.present i = false ∨ (s.path i).state ≠ .closed) → g = s.hold i) ∧
    (s.present i = true → (s.path i).state = .closed → examined c s.nowMs (s.adjOf i).strikes (s.hold i) g)) ∧
  ∀ (dt : Nat) (order : CloseOrder) (start : State) (c : Settings),
    let s := start.arrive dt
    s.settings = some c → s.wac.count = 64 →
    ∃ u, exec (.windowClose dt order) start = .next (endStep order.demandsWait u) ∧
      (order.verdictsWait = true → u.hld = s.hld) ∧
      (order.verdictsWait = false → ∀ i : StringIdx, (s.adjOf i).strikes + 1 < c.persistence →
        (s.present i = false ∨ (s.path i).state ≠ .closed → u.hold i = s.hold i) ∧
        (s.present i = true → (s.path i).state = .closed →
          examined c s.nowMs (if order.holdsFirst then s.adjOf i else u.adjOf i).strikes (s.hold i) (u.hold i)))

/-! ### The shutdown line (R147, R148) -/

/-- A change of the shutdown input that the last tick has read (R147, R148): on assertion every present string gets SHUTDOWN, loses
VOLTAGE_WAIT, and has its path part act on a 1-step SHUTDOWN demand; on deassertion it loses SHUTDOWN and gets STARTUP, 5 s away and 2 s
more for each index; a string that is not present is left. Without a change the command lets time pass (assumption logs 2 and 22). -/
def Obligations.ShutdownLineHoldsAndReturnsTheStrings : Prop :=
  ∀ (dt : Nat) (start : State),
    let s := start.arrive dt
    (s.hld.input = s.hld.shutdown → exec (.shutdownAssertion dt) start = .next s ∧ exec (.shutdownDeassertion dt) start = .next s) ∧
    (s.hld.input = true → s.hld.shutdown = false →
      ∃ t, exec (.shutdownAssertion dt) start = .next t ∧ t.hld.shutdown = true ∧ t.hld.input = true ∧ t.nvs = s.nvs ∧ t.flg = s.flg
        ∧ t.abu = s.abu ∧ t.acu = s.acu ∧ t.boxTrip = s.boxTrip ∧ t.demands = s.demands ∧
        ∀ i : StringIdx,
          let now := s.nowMs
          let p := s.path i
          (s.present i = false → t.path i = p ∧ t.hold i = s.hold i) ∧
          (s.present i = true →
            (t.hold i).shutdown = true ∧ (t.hold i).voltageRecheck = none ∧ (t.hold i).lockout = (s.hold i).lockout
              ∧ (t.hold i).manual = (s.hold i).manual ∧ (t.hold i).startupUntil = (s.hold i).startupUntil
              ∧ (t.hold i).retryUntil = (s.hold i).retryUntil ∧ (t.hold i).retryCount = (s.hold i).retryCount
              ∧ (t.hold i).suspect = (s.hold i).suspect) ∧
          (s.present i = true → p.state = .closed ∨ p.state = .closing →
            t.path i = { p with state := .opening, stepCount := some 1, stepsLeft := some 1, deadline := some (now + ms 2)
                                reason := some .shutdown, isolationStart := some now }) ∧
          (s.present i = true → p.state = .making →
            t.path i = { p with state := .parting, deadline := some (now + ms 30), reason := some .shutdown, isolationStart := some now }) ∧
          (s.present i = true → p.state = .opening → p.stepsLeft ≠ some 1 →
            t.path i = { p with stepCount := some 1, stepsLeft := some 1 }) ∧
          (p.state = .opening → p.stepsLeft = some 1 → t.path i = p) ∧
          (p.state = .confirming ∨ p.state = .parting ∨ p.state = .isolated ∨ p.state = .stuck → t.path i = p)) ∧
    (s.hld.input = false → s.hld.shutdown = true →
      ∃ strings, exec (.shutdownDeassertion dt) start = .next (s.withHld { s.hld with strings := strings, shutdown := false }) ∧
        ∀ i : StringIdx,
          (s.present i = false → strings[i] = s.hold i) ∧
          (s.present i = true → strings[i] = { s.hold i with
            shutdown := false, voltageRecheck := none, startupUntil := some (s.nowMs + ms (5000 + 2000 * i.val)) }))

/-! ### Path deadlines (R119, R122, R125, R127, R131, R132) -/

/-- The ramps (R119, R122, R131, R132, R144). Down: a step that is not the last subtracts the increment and sets the deadline 2 ms after
the one reached; the last sets level 0 and enters CONFIRMING with a deadline 50 ms away; a ramp from a level has 1 to s steps, s itself
from 255, and every step before the last leaves a level above 0. Up: the relay deadline in MAKING begins a ramp of the ramp steps setting
at the level as it is; a step that is not the last adds the increment; the last sets 255 and enters CLOSED, where the ramp fields, the
deadline and the isolation reason are absent and closed-since is set. That the
notices of a change are taken in its step is the model's choice (assumption log 37). -/
def Obligations.RampsLowerAndRaiseTheDrive : Prop :=
  (∀ (dt : Nat) (i : StringIdx) (start : State) (n k : Nat) (d : Ms),
    let s := start.arrive dt
    let p := s.path i
    p.stepCount = some n → p.stepsLeft = some k → p.deadline = some d → reached s.nowMs d = true →
    (p.state = .opening → k ≠ 1 → 255 / n < p.level →
      exec (.openingStep dt i) start = .next (s.setPath i { p with
        level := p.level - 255 / n, stepsLeft := some (k - 1), deadline := some (d + ms 2) })) ∧
    (p.state = .opening → k = 1 →
      exec (.openingStep dt i) start = .next ((s.setPath i { p with
        state := .confirming, level := 0, stepCount := none, stepsLeft := none
        deadline := some (s.nowMs + ms 50) }).withWac { s.wac with pathChanged := true })) ∧
    (p.state = .closing → k ≠ 1 → p.level + 255 / n < 255 →
      exec (.closingStep dt i) start = .next (s.setPath i { p with
        level := p.level + 255 / n, stepsLeft := some (k - 1), deadline := some (d + ms 2) })) ∧
    (p.state = .closing → k = 1 →
      exec (.closingStep dt i) start = .next (((s.setPath i { p with
        state := .closed, level := 255, stepCount := none, stepsLeft := none, deadline := none, reason := none }).withWac
          { s.wac with pathChanged := true }).setHold i { s.hold i with closedSince := some s.nowMs }))) ∧
  (∀ (dt : Nat) (i : StringIdx) (start : State) (c : Settings) (d : Ms),
    let s := start.arrive dt
    s.settings = some c → (s.path i).state = .making → (s.path i).deadline = some d → reached s.nowMs d = true →
    exec (.makingDeadline dt i) start = .next ((s.setPath i { s.path i with
      state := .closing, stepCount := some c.rampSteps, stepsLeft := some c.rampSteps
      deadline := some (s.nowMs + ms 2) }).withWac { s.wac with pathChanged := true })) ∧
  ∀ (s level : Nat), 1 ≤ s → s ≤ 16 → level ≤ 255 →
    let r := rampDownSteps level s
    1 ≤ r ∧ r ≤ s ∧ (level = 255 → r = s) ∧ (∀ j, j < r → 0 < level → 0 < level - j * (255 / s)) ∧ (r = s ∨ level ≤ r * (255 / s))

/-- The confirm deadline (R125): the string is STUCK, the box trip line is asserted, a SWITCH_STUCK record is made with the latest
current, and the string's records of this isolation turn to ISOLATION_FAILED (R157); a present string gets LOCKOUT and switch suspect. In
a full log the record takes the place of one removed (R156). That the latest current is that of the set formed last, also where the
sequencer has not taken that set yet, is the model's choice (assumption log 33). -/
def Obligations.ConfirmDeadlineFindsTheSwitchStuck : Prop :=
  ∀ (dt : Nat) (i : StringIdx) (start : State) (c : Settings) (d isolated : Ms),
    let s := start.arrive dt
    s.settings = some c → (s.path i).state = .confirming → (s.path i).deadline = some d → (s.path i).isolationStart = some isolated →
    reached s.nowMs d = true →
    let failed := fun r : FaultRecord =>
      if r.string = i ∧ r.outcome = .isolated ∧ r.declared.any (fun m => since s.nowMs m ≤ since s.nowMs isolated) = true ∧
        (r.seconds = s.seconds ∨ r.seconds + 1 = s.seconds) then { r with outcome := .isolationFailed } else r
    let made : FaultRecord :=
      ⟨s.flg.nextSeq, i, .switchStuck, s.seconds, s.sfe.currents[i], none, none, .isolationFailed, none, some s.nowMs⟩
    ∃ t, exec (.confirmDeadline dt i) start = .next t
      ∧ t.path i = { s.path i with state := .stuck, deadline := none } ∧ t.boxTrip = true
      ∧ (∀ j, j ≠ i → t.path j = s.path j ∧ t.hold j = s.hold j)
      ∧ (c.strings[i].present = true → t.hold i = { s.hold i with lockout := true, voltageRecheck := none, suspect := true })
      ∧ t.demands = s.demands ∧ t.abu = s.abu ∧ t.acu = s.acu ∧ t.adj = s.adj
      ∧ t.flg.nextSeq = succSeq s.flg.nextSeq
      ∧ (s.flg.records.length < 32 → t.flg.lost = s.flg.lost ∧ t.flg.records = s.flg.records.map failed ++ [made])
      ∧ (∀ before r after, 32 ≤ s.flg.records.length → s.flg.records = before ++ r :: after → (∀ q ∈ before, q.ackBy = none) →
          r.ackBy ≠ none → t.flg.lost = s.flg.lost ∧ t.flg.records = (before ++ after).map failed ++ [made])
      ∧ (32 ≤ s.flg.records.length → (∀ r ∈ s.flg.records, r.ackBy = none) →
          t.flg.lost = (if s.flg.lost < 255 then s.flg.lost + 1 else s.flg.lost)
            ∧ t.flg.records = (s.flg.records.drop 1).map failed ++ [made])

/-- The relay deadline in PARTING (R127, R142): the string is ISOLATED; with a hold it stays so, and with none the voltage check sends
a present string to MAKING or to VOLTAGE_WAIT for 60 s. That the notices of a change are taken in its
step, and a close permission in the step of its consideration, is the model's choice (assumption logs 37 and 38). -/
def Obligations.PartingDeadlineIsolates : Prop :=
  ∀ (dt : Nat) (i : StringIdx) (start : State) (c : Settings) (d : Ms),
    let s := start.arrive dt
    s.settings = some c → (s.path i).state = .parting → (s.path i).deadline = some d → reached s.nowMs d = true →
    let close := ((s.sfe.voltages[i] : Int) - (s.sfe.bus : Int)).natAbs ≤ c.voltageWindow
    let isolated := (s.setPath i { s.path i with state := .isolated, deadline := none }).withWac { s.wac with pathChanged := true }
    ((s.hold i).empty = false ∨ c.strings[i].present = false → exec (.partingDeadline dt i) start = .next isolated) ∧
    ((s.hold i).empty = true → c.strings[i].present = true → close →
      exec (.partingDeadline dt i) start = .next (isolated.setPath i { s.path i with
        state := .making, deadline := some (s.nowMs + ms 30), isolationStart := none })) ∧
    ((s.hold i).empty = true → c.strings[i].present = true → ¬ close →
      exec (.partingDeadline dt i) start = .next (isolated.setHold i { s.hold i with voltageRecheck := some (s.nowMs + ms 60000) }))

/-! ### Open demands and close permissions (R121, R123, R128, R130, R133, R134) -/

/-- What an open demand does in each path state (R121, R123, R126, R128, R133, R134); and a close permission, which is taken only in
ISOLATED with an empty hold set and is otherwise dropped (R130). That the notices of a change are taken in
its step is the model's choice (assumption log 37). -/
def Obligations.OpenDemandsAndClosePermissionsActByPathState : Prop :=
  (∀ (i : StringIdx) (reason : Reason) (n : Nat) (s : State), 1 ≤ n → n ≤ 16 →
    let p := s.path i
    let t := openDemand i reason n s
    (∀ j, j ≠ i → t.path j = s.path j) ∧
    (p.state = .closed → t.path i = { p with
      state := .opening, reason := some reason, isolationStart := some s.nowMs, stepCount := some n, stepsLeft := some n
      deadline := some (s.nowMs + ms 2) }) ∧
    (p.state = .closing → t.path i = { p with
      state := .opening, reason := some reason, isolationStart := some s.nowMs, stepCount := some n
      stepsLeft := some (max 1 (min n ((p.level + 255 / n - 1) / (255 / n)))), deadline := some (s.nowMs + ms 2) }) ∧
    (p.state = .making → t.path i = { p with
      state := .parting, deadline := some (s.nowMs + ms 30), reason := some reason, isolationStart := some s.nowMs }) ∧
    (p.state = .opening → n = 1 → p.stepsLeft ≠ some 1 → t = s.setPath i { p with stepCount := some 1, stepsLeft := some 1 }) ∧
    (p.state = .opening → n ≠ 1 ∨ p.stepsLeft = some 1 → t = s) ∧
    (p.state = .confirming ∨ p.state = .parting ∨ p.state = .isolated ∨ p.state = .stuck → t = s) ∧
    (p.state = .closed ∨ p.state = .closing ∨ p.state = .making → t.wac.pathChanged = true) ∧
    (p.state = .closed → t.wac.closedThroughout[i] = false ∧ (t.hold i).closedSince = none)) ∧
  ∀ (i : StringIdx) (s : State),
    ((s.path i).state = .isolated → (s.hold i).empty = true →
      closePermission i s = (s.setPath i { s.path i with
        state := .making, deadline := some (s.nowMs + ms 30), isolationStart := none }).withWac { s.wac with pathChanged := true }) ∧
    ((s.path i).state ≠ .isolated ∨ (s.hold i).empty = false → closePermission i s = s)

/-! ### Holds and declarations (R91, R92, R140 to R143, R150, R154, R156) -/

/-- The hold consequence of a declaration on a present string (the table of R140), with VOLTAGE_WAIT removed by any other hold (R143);
a string that is not present takes none (R139). -/
def Obligations.HoldConsequencesFollowTheirTable : Prop :=
  ∀ (c : Settings) (i : StringIdx) (s : State), s.settings = some c →
    let h := s.hold i
    let after := fun k => (holdConsequence c i k s).hold i
    (s.present i = false → ∀ k, holdConsequence c i k s = s) ∧
    (s.present i = true →
      (h.retryCount < c.retryBudget → after .retryOrLockout = { h with
        retryUntil := some (s.nowMs + ms (60000 * c.retryHold)), voltageRecheck := none, retryCount := h.retryCount + 1 }) ∧
      (c.retryBudget ≤ h.retryCount → after .retryOrLockout = { h with lockout := true, voltageRecheck := none }) ∧
      after .lockout = { h with lockout := true, voltageRecheck := none } ∧
      after .lockoutSuspect = { h with lockout := true, voltageRecheck := none, suspect := true } ∧
      after .nothing = h)

/-- A declaration that carries no isolation start reaches three blocks (R91): the Fault log makes one record (R154), and in a full log
first removes the oldest acknowledged record, or, with none, the oldest record, which it counts as lost up to 255 (R156); the Hold manager
applies the consequence to a present string; the open demand sets out for the sequencer (assumption log 6). Nothing else changes but the
lockout page. -/
def Obligations.DeclarationReachesLogHoldsAndSequencer : Prop :=
  ∀ (c : Settings) (d : Declaration) (s : State), s.settings = some c → d.isolationStart = none →
    let t := declareFault c d s
    let made : FaultRecord :=
      ⟨s.flg.nextSeq, d.string, d.cause, s.seconds, d.detail, d.reference, d.contributors, d.outcome, none, some s.nowMs⟩
    t.flg.nextSeq = (if s.flg.nextSeq = 65535 then 1 else s.flg.nextSeq + 1) ∧
    (s.flg.records.length < 32 → t.flg.records = s.flg.records ++ [made] ∧ t.flg.lost = s.flg.lost) ∧
    (∀ before r after, 32 ≤ s.flg.records.length → s.flg.records = before ++ r :: after → (∀ q ∈ before, q.ackBy = none) →
      r.ackBy ≠ none → t.flg.records = before ++ after ++ [made] ∧ t.flg.lost = s.flg.lost) ∧
    (∀ r after, 32 ≤ s.flg.records.length → s.flg.records = r :: after → (∀ q ∈ s.flg.records, q.ackBy = none) →
      t.flg.records = after ++ [made] ∧ t.flg.lost = (if s.flg.lost < 255 then s.flg.lost + 1 else s.flg.lost)) ∧
    t.hold d.string = (if c.strings[d.string].present then (s.hold d.string).consequence c s.nowMs d.consequence else s.hold d.string) ∧
    (∀ j, j ≠ d.string → t.hold j = s.hold j) ∧
    (d.demand = none → t.demands = s.demands) ∧
    (∀ n, d.demand = some n → t.demands = s.demands ++ [⟨d.string, .fault d.cause, n⟩]) ∧
    t = { s with flg := t.flg, demands := t.demands, hld := { s.hld with strings := t.hld.strings }, nvs := t.nvs }

/-- A timed hold ends (R141): RETRY or STARTUP is removed, and nothing more happens to a string that keeps a hold or is not ISOLATED;
an ISOLATED present string left without a hold goes to MAKING when the voltage check passes, else to VOLTAGE_WAIT (R142). The voltage
recheck (R143): with VOLTAGE_WAIT alone on an ISOLATED string, a check that passes removes the hold and sends the string to MAKING, and
one that fails sets the recheck 60 s on; otherwise nothing is done. That the notices of a change are
taken in its step, and a close permission in the step of its consideration, is the model's choice (assumption logs 37 and 38). -/
def Obligations.TimedHoldsEndAndVoltageIsCheckedAgain : Prop :=
  ∀ (dt : Nat) (i : StringIdx) (start : State) (c : Settings) (d : Ms),
    let s := start.arrive dt
    let close := ((s.sfe.voltages[i] : Int) - (s.sfe.bus : Int)).natAbs ≤ c.voltageWindow
    let making := fun t : State => (t.setPath i { s.path i with
      state := .making, deadline := some (s.nowMs + ms 30), isolationStart := none }).withWac { s.wac with pathChanged := true }
    s.settings = some c → reached s.nowMs d = true →
    (∀ (command : Instr) (h : Hold),
      (command = .retryEnd dt i ∧ (s.hold i).retryUntil = some d ∧ h = { s.hold i with retryUntil := none }) ∨
        (command = .startupEnd dt i ∧ (s.hold i).startupUntil = some d ∧ h = { s.hold i with startupUntil := none }) →
      let t := s.setHold i h
      (h.empty = false ∨ (s.path i).state ≠ .isolated ∨ c.strings[i].present = false → exec command start = .next t) ∧
      (h.empty = true → (s.path i).state = .isolated → c.strings[i].present = true → close → exec command start = .next (making t)) ∧
      (h.empty = true → (s.path i).state = .isolated → c.strings[i].present = true → ¬ close →
        exec command start = .next (t.setHold i { h with voltageRecheck := some (s.nowMs + ms 60000) }))) ∧
    ((s.hold i).voltageRecheck = some d →
      let h := s.hold i
      let alone := h.lockout = false ∧ h.manual = false ∧ h.shutdown = false ∧ h.startupUntil = none ∧ h.retryUntil = none
      (alone → (s.path i).state = .isolated → close →
        exec (.voltageRecheck dt i) start = .next (making (s.setHold i { h with voltageRecheck := none }))) ∧
      (alone → (s.path i).state = .isolated → ¬ close →
        exec (.voltageRecheck dt i) start = .next (s.setHold i { h with voltageRecheck := some (s.nowMs + ms 60000) })) ∧
      (¬ alone ∨ (s.path i).state ≠ .isolated → exec (.voltageRecheck dt i) start = .next s))

/-- A mask change (R150): the LOCKOUT and MANUAL masks are views of the hold sets of the present strings; an action that changes either
hands the store unit one mask change, which in IDLE begins a lockout page write with the masks as they then stand, complete 6 ms later,
and in WRITING sets the pending flag; an action that changes neither hands nothing. Of a hold consequence, and of the commands ISOLATE,
RELEASE and CONFIRM_DEADLINE as wholes. -/
def Obligations.MaskChangesWriteTheLockoutPage : Prop :=
  let follows := fun s t : State =>
    let covered : List Byte := [0x3C, 0x27] ++ be16 t.lockoutMask ++ be16 t.manualMask
    (t.lockoutMask = s.lockoutMask → t.manualMask = s.manualMask → t.nvs = s.nvs) ∧
    (t.lockoutMask ≠ s.lockoutMask ∨ t.manualMask ≠ s.manualMask →
      (s.nvs.write = none → t.nvs = { s.nvs with
        store := Memory.erasePage s.nvs.store 2
        write := some ⟨.lockoutPage, 2, covered ++ be16 (crc16 covered).toNat, s.nowMs + ms 6, false⟩ }) ∧
      (s.nvs.write ≠ none → t.nvs = { s.nvs with pendingMask := true }))
  (∀ (s : State) (i : StringIdx), s.lockoutMask.testBit i.val = (s.present i && (s.hold i).lockout) ∧
    s.manualMask.testBit i.val = (s.present i && (s.hold i).manual)) ∧
  (∀ (c : Settings) (i : StringIdx) (k : Consequence) (s : State), follows s (holdConsequence c i k s)) ∧
  ∀ (dt : Nat) (start : State) (i : StringIdx) (command : Instr), command ∈ [.isolate dt, .release dt, .confirmDeadline dt i] →
    ∃ t, exec command start = .next t ∧ follows (start.arrive dt) t

/-! ### The arc contest (R103, R104, R106, R108 to R112) -/

/-- An ARC_CLAIM delivered to the ACU (R103, R104, R106): a body that fails a check, or another feeder, changes nothing; a rival claim
becomes the newest entry of the list, in place of its station's or, of eight, of the oldest; in CONTEST it is compared with the best
rival. -/
def Obligations.RivalClaimsAreListedAndCompared : Prop :=
  ∀ (c : Settings) (s : State) (kind : Byte) (source dest feeder : Nat) (body : List Byte),
    let t := takeClaim c ⟨kind, source, dest, feeder, body⟩ s
    (body.length ≠ 5 ∨ feeder ≠ c.feeder → t = s) ∧
    (∀ round outcome hi lo string, body = [round, outcome, hi, lo, string] →
      let score := hi.toNat * 256 + lo.toNat
      let sound := (round = 1 ∨ round = 2) ∧ (outcome = 1 ∨ outcome = 2) ∧ score ≤ 1023 ∧ 1 ≤ string.toNat ∧ string.toNat ≤ 12
      let entry : Rival := ⟨source, score, s.nowMs⟩
      (¬ sound → t = s) ∧
      (sound → feeder = c.feeder →
        t = s.withAcu { s.acu with rivals := t.acu.rivals, contest := t.acu.contest } ∧
        ((∃ r ∈ s.acu.rivals, r.station = source) →
          t.acu.rivals = (s.acu.rivals.filter fun r => decide (r.station ≠ source)) ++ [entry]) ∧
        ((∀ r ∈ s.acu.rivals, r.station ≠ source) → 8 ≤ s.acu.rivals.length → t.acu.rivals = s.acu.rivals.drop 1 ++ [entry]) ∧
        ((∀ r ∈ s.acu.rivals, r.station ≠ source) → s.acu.rivals.length < 8 → t.acu.rivals = s.acu.rivals ++ [entry]) ∧
        (∀ n own chosen windowEnd best, s.acu.contest = .contest n own chosen windowEnd best →
          t.acu.contest = .contest n own chosen windowEnd
            (if best.all (fun b => b.score < score || (score = b.score && source < b.station)) then some ⟨source, score⟩ else best)) ∧
        ((∀ n own chosen windowEnd best, s.acu.contest ≠ .contest n own chosen windowEnd best) → t.acu.contest = s.acu.contest)))

/-- The window end decides a contest (R106, R108): a round 1 station beaten by its best rival yields for 2000 ms and opens nothing;
otherwise it settles for 500 ms and opens its chosen string, or the winning replacement, with an ARC record, LOCKOUT, a 1-step demand and
an ISOLATED claim, or sets the latch when there is none. The demand acts at the end of the step or is still on its way (assumption
log 6). -/
def Obligations.ContestWindowEndDecides : Prop :=
  ∀ (at' : ContestEnd) (start : State) (c : Settings) (round : Nat) (own : Peak) (chosen : StringIdx) (windowEnd : Ms)
      (best : Option BestRival),
    let s := start.arrive at'.dt
    s.settings = some c → s.acu.contest = .contest round own chosen windowEnd best → reached s.nowMs windowEnd = true →
    let isBeaten := best.any fun r => own.score < r.score || (r.score = own.score && r.station < c.station)
    (round = 1 → isBeaten = true → exec (.contestWindowEnd at') start = .next (endStep at'.demandsWait
      (s.withAcu { s.acu with contest := .yielded 1 (some (s.nowMs + ms 2000)) none }))) ∧
    (round ≠ 1 ∨ isBeaten = false →
      ∃ u, exec (.contestWindowEnd at') start = .next (endStep at'.demandsWait u) ∧ u.acu.contest = .settle (s.nowMs + ms 500) ∧
        u.paths = s.paths ∧ u.acu.rivals = s.acu.rivals ∧ u.acu.alarmRun = s.acu.alarmRun ∧
        (∀ i, ((s.path chosen).connected = true ∧ i = chosen) ∨
            ((s.path chosen).connected = false ∧ chooseString own.shares s.replacementCandidate = some i) →
          (∃ r, u.flg.records.getLast? = some r ∧ r.string = i ∧ r.cause = .arc ∧ r.detail = own.score ∧ r.outcome = .isolated
            ∧ r.seq = s.flg.nextSeq ∧ r.ackBy = none)
          ∧ u.demands = s.demands ++ [⟨i, .fault .arc, 1⟩]
          ∧ u.abu = (if s.abu.silent then s.abu else
              s.abu.offerSingle c s.timeUs .arcClaim [byteOf round, 2, byteOf (own.score / 256), byteOf own.score, byteOf (i.val + 1)])
          ∧ (c.strings[i].present = true → (u.hold i).lockout = true) ∧ (∀ j, j ≠ i → u.hold j = s.hold j)
          ∧ u.acu.latch = s.acu.latch ∧ u.boxTrip = s.boxTrip
          ∧ (s.demands = [] →
              let t := endStep false u
              (t.path i).state = .opening ∧ (t.path i).stepCount = some 1 ∧ (t.path i).stepsLeft = some 1
                ∧ (t.path i).reason = some (.fault .arc) ∧ ∀ j, j ≠ i → t.path j = s.path j)) ∧
        ((s.path chosen).connected = false → chooseString own.shares s.replacementCandidate = none →
          u.acu.latch = true ∧ (s.acu.latch = false → u.boxTrip = true) ∧ u.flg = s.flg ∧ u.demands = s.demands ∧ u.hld = s.hld
            ∧ u.abu = s.abu))

/-- The contest's other deadlines: the resolution deadline opens round 2 on a loud latest score, with its claim, or is dropped (R110,
R111), 500 ms of quiet end a yield (R109), the settle end returns to IDLE (R112), and a rival entry goes one contest window after its
arrival (R104). That the latest score is that of the set formed last, also where the contest unit has not taken it yet, is the model's
choice (assumption log 33). -/
def Obligations.ContestDeadlinesEndTheirStates : Prop :=
  ∀ (dt : Nat) (start : State) (c : Settings),
    let s := start.arrive dt
    s.settings = some c →
    (∀ n d quiet, s.acu.contest = .yielded n (some d) quiet → reached s.nowMs d = true →
      (s.sfe.score ≤ c.arcThreshold → exec (.resolutionDeadline dt) start = .next (s.withAcu
        { s.acu with contest := .yielded n none quiet })) ∧
      (c.arcThreshold < s.sfe.score → ∃ t, exec (.resolutionDeadline dt) start = .next t ∧
        (∀ i, chooseString s.sfe.shares s.arcCandidate = some i →
          (∃ best, t.acu.contest = .contest 2 ⟨s.sfe.score, s.sfe.shares⟩ i (s.nowMs + ms c.contestWindow) best) ∧
          t.abu = (if s.abu.silent then s.abu else
            s.abu.offerSingle c s.timeUs .arcClaim [2, 1, byteOf (s.sfe.score / 256), byteOf s.sfe.score, byteOf (i.val + 1)])) ∧
        (chooseString s.sfe.shares s.arcCandidate = none →
          t.acu.contest = .idle ∧ t.acu.latch = true ∧ (s.acu.latch = false → t.boxTrip = true) ∧ t.abu = s.abu))) ∧
    (∀ n resolution q, s.acu.contest = .yielded n resolution (some q) → reached s.nowMs (q + ms 500) = true →
      exec (.quietPeriodEnd dt) start = .next (s.withAcu { s.acu with contest := .idle })) ∧
    (∀ d, s.acu.contest = .settle d → reached s.nowMs d = true →
      exec (.settleEnd dt) start = .next (s.withAcu { s.acu with contest := .idle })) ∧
    (∀ station, exec (.rivalExpiry dt station) start = .next (s.withAcu { s.acu with
      rivals := s.acu.rivals.filter fun r => !(decide (r.station = station) && reached s.nowMs (r.arrival + ms c.contestWindow)) }))

/-! ### The array bus (R24 to R32, R34 to R50) -/

/-- A byte on the line while the part does not send (the tables of R24 and R25, and R40): it restarts the idle gap and abandons a
deferral, and then the receive state decides. -/
def Obligations.ReceiverTakesBytes : Prop :=
  ∀ (dt : Nat) (b : Byte) (stopError : Bool) (start : State) (c : Settings),
    let s := start.arrive dt
    s.settings = some c → s.abu.tx ≠ .sending →
    let noted : Abu := { s.abu with
      lastByteEnd := s.timeUs
      tx := if s.abu.tx = .deferring then .waiting else s.abu.tx
      deferral := if s.abu.tx = .deferring then none else s.abu.deferral }
    let discarded : Abu := { noted with
      rx := .gapWait, taken := [], tally := { s.abu.tally with byteDiscard := satSucc 65535 s.abu.tally.byteDiscard } }
    let ignored : Abu := { noted with
      rx := .gapWait, taken := [], tally := { s.abu.tally with headerIgnored := satSucc 65535 s.abu.tally.headerIgnored } }
    let becomes := fun a : Abu => exec (.byteArrival dt b stopError) start = .next (s.withAbu a)
    let known := b = 0x21 ∨ b = 0x2A ∨ b = 0x31 ∨ b = 0x32
    (s.abu.rx = .gapWait → becomes noted) ∧
    (s.abu.rx ≠ .gapWait → stopError = true → becomes discarded) ∧
    (s.abu.rx = .ready → stopError = false → known → becomes { noted with rx := .header, taken := [b] }) ∧
    (s.abu.rx = .ready → stopError = false → ¬ known → becomes ignored) ∧
    (s.abu.rx = .header → stopError = false → s.abu.taken.length = 1 → 1 ≤ b.toNat → b.toNat ≤ 62 →
      becomes { noted with taken := s.abu.taken ++ [b] }) ∧
    (s.abu.rx = .header → stopError = false → s.abu.taken.length = 1 → b = 0 ∨ 62 < b.toNat → becomes ignored) ∧
    (s.abu.rx = .header → stopError = false → s.abu.taken.length = 2 ∨ s.abu.taken.length = 3 →
      becomes { noted with taken := s.abu.taken ++ [b] }) ∧
    (s.abu.rx = .header → stopError = false → s.abu.taken.length = 4 → b.toNat ≤ 120 →
      becomes { noted with rx := .body, taken := s.abu.taken ++ [b] }) ∧
    (s.abu.rx = .header → stopError = false → s.abu.taken.length = 4 → 120 < b.toNat → becomes ignored) ∧
    (s.abu.rx = .body → stopError = false → 5 ≤ s.abu.taken.length →
      s.abu.taken.length + 1 ≠ 5 + (s.abu.taken.getD 4 0).toNat + 2 → becomes { noted with taken := s.abu.taken ++ [b] })

/-- The last check byte of a telegram (R27): a check value that disagrees is counted CRC_DISCARD and nothing is passed on; one that
agrees is counted VALID and the telegram is delivered (DeliveryFollowsKindAndDestination), and one under the own station number puts a
station in RUN into SILENT, where the peer table is emptied in the same step (R31, R56; assumption log 30). The BYTE_ARRIVAL of that byte
is the same event (assumption log 12). -/
def Obligations.TelegramCompletesOnItsCheckValue : Prop :=
  ∀ (dt : Nat) (b : Byte) (start : State) (c : Settings),
    let s := start.arrive dt
    s.settings = some c → s.abu.rx = .body → s.abu.tx ≠ .sending →
    5 ≤ s.abu.taken.length → s.abu.taken.length + 1 = 5 + (s.abu.taken.getD 4 0).toNat + 2 →
    let bytes := s.abu.taken ++ [b]
    let covered := bytes.take (s.abu.taken.length - 1)
    let agrees := bytes.drop (s.abu.taken.length - 1) = be16 (crc16 covered).toNat
    let telegram : Telegram :=
      ⟨bytes.getD 0 0, (bytes.getD 1 0).toNat, (bytes.getD 2 0).toNat, (bytes.getD 3 0).toNat,
        (bytes.drop 5).take (bytes.getD 4 0).toNat⟩
    let noted : Abu := { s.abu with
      rx := .gapWait, taken := [], lastByteEnd := s.timeUs
      tx := if s.abu.tx = .deferring then .waiting else s.abu.tx
      deferral := if s.abu.tx = .deferring then none else s.abu.deferral }
    let valid : Abu := { noted with tally := { s.abu.tally with valid := satSucc 65535 s.abu.tally.valid } }
    exec (.byteArrival dt b false) start = exec (.telegramComplete dt b) start ∧
    (¬ agrees → exec (.telegramComplete dt b) start = .next (s.withAbu { noted with
      tally := { s.abu.tally with crcDiscard := satSucc 65535 s.abu.tally.crcDiscard } })) ∧
    (agrees → exec (.telegramComplete dt b) start = .next (deliver c telegram (s.withAbu valid))) ∧
    (agrees → telegram.source = c.station → s.abu.silent = false →
      exec (.telegramComplete dt b) start = .next ((s.withAbu { valid with
        silent := true, queue := [], tx := .empty, deferral := none }).withPtb { s.ptb with entries := [] })) ∧
    (agrees → telegram.source = c.station → s.abu.silent = true → exec (.telegramComplete dt b) start = .next (s.withAbu valid))

/-- Delivery of a VALID telegram of another station (R29, R30, R32, R38, R46). In RUN the heard notice refreshes a known peer's last-heard
time, and that is all a REPLY, or a telegram for another station, does; a DIGEST for all stations or the own one goes to the peer table,
an ARC_CLAIM to the Arc contest unit; a REQUEST for the own station supersedes a waiting reply to its source and joins the requests, or
is answered BAD_ARGUMENT when it fails check 1 of R164 (as a step of this delivery: assumption log 11). In SILENT only an ARC_CLAIM is
delivered. -/
def Obligations.DeliveryFollowsKindAndDestination : Prop :=
  ∀ (c : Settings) (t : Telegram) (s : State), t.source ≠ c.station →
    let heard := s.withPtb { s.ptb with entries := s.ptb.entries.map fun e =>
      if e.station = t.source then { e with lastHeard := s.nowMs } else e }
    let forUs := t.dest = 0 ∨ t.dest = c.station
    let readable := 3 ≤ t.body.length ∧ 1 ≤ (t.body.getD 0 0).toNat ∧ (t.body.getD 0 0).toNat ≤ 7
    let superseded := s.abu.supersede t.source
    (s.abu.silent = false → t.kind = 0x21 → forUs → deliver c t s = takeDigest c t heard) ∧
    (s.abu.silent = false → t.kind = 0x2A → forUs → deliver c t s = takeClaim c t heard) ∧
    (s.abu.silent = false → t.kind = 0x32 → deliver c t s = heard) ∧
    (s.abu.silent = false → ¬ forUs → deliver c t s = heard) ∧
    (s.abu.silent = false → t.kind = 0x31 → t.dest = 0 → c.station ≠ 0 → deliver c t s = heard) ∧
    (s.abu.silent = false → t.kind = 0x31 → t.dest = c.station →
      (readable → deliver c t s = (heard.withAbu superseded).withRequests (s.requests ++ [⟨t.source, t.body⟩])) ∧
      (¬ readable → deliver c t s = offerReply t.source [t.body.getD 0 0, t.body.getD 1 0, 2] (heard.withAbu superseded))) ∧
    ((∀ e ∈ s.abu.queue, ¬ (e.kind = .reply ∧ e.dest = t.source)) → superseded = s.abu) ∧
    (∀ before e after, s.abu.queue = before ++ e :: after → e.kind = .reply → e.dest = t.source →
      (∀ q ∈ before, ¬ (q.kind = .reply ∧ q.dest = t.source)) →
      superseded = { s.abu with
        queue := before ++ after, tally := { s.abu.tally with repliesSuperseded := satSucc 65535 s.abu.tally.repliesSuperseded }
        tx := if before ++ after = [] then .empty else s.abu.tx
        deferral := if before ++ after = [] then none else s.abu.deferral }) ∧
    (s.abu.silent = true → t.kind = 0x2A → forUs → deliver c t s = takeClaim c t s) ∧
    (s.abu.silent = true → t.kind ≠ 0x2A ∨ ¬ forUs → deliver c t s = s)

/-- A DIGEST delivered to the peer table. The check of R47, byte by byte: the feeder, the body length, and each group entry's group, count
and median, the groups in ascending order. One that fails changes nothing; one that passes replaces its station's entry (R48), makes a new
one while fewer than 24 are held (R49), or takes the place of the entry heard longest ago, the lower station among equals, if that entry's
digest is not fresh, and is else counted as overflow (R50). Where a new entry stands in the list is the model's choice (assumption
log 21). -/
def Obligations.DigestsUpdateAdmitOrOverflow : Prop :=
  (∀ (feeder : Nat) (body : List Byte),
    let n := (body.getD 2 0).toNat
    let byte := fun k j => body.getD (3 + 5 * k + j) 0
    let value := fun k => (BitVec.ofNat 16 ((byte k 3).toNat * 256 + (byte k 4).toNat)).toInt
    let sound := fun k => (byte k 0).toNat ≤ 7 ∧ (byte k 1).toNat ≤ 12 ∧ ((byte k 2).getLsbD 1 = true ↔ 1 ≤ (byte k 1).toNat) ∧
      ((byte k 2).getLsbD 1 = true → -4000 ≤ value k ∧ value k ≤ 4000)
    ((∃ gs, parseDigest feeder body = some gs) ↔
      feeder ≤ 15 ∧ 3 ≤ body.length ∧ n ≤ 8 ∧ body.length = 3 + 5 * n ∧ (∀ k, k < n → sound k) ∧
        ∀ k, k + 1 < n → (byte k 0).toNat < (byte (k + 1) 0).toNat) ∧
    ∀ gs, parseDigest feeder body = some gs → gs.length = n ∧ ∀ k, k < n →
      gs[k]? = some ⟨(byte k 0).toNat, (byte k 1).toNat, if (byte k 2).getLsbD 1 then some (value k) else none, (byte k 2).getLsbD 0⟩) ∧
  ∀ (c : Settings) (t : Telegram) (s : State),
    let u := takeDigest c t s
    let known := ∃ e ∈ s.ptb.entries, e.station = t.source
    (parseDigest t.feeder t.body = none → u = s) ∧
    ∀ gs, parseDigest t.feeder t.body = some gs →
      let entry : PeerEntry := ⟨t.source, t.feeder, s.nowMs, some s.nowMs, gs⟩
      u = s.withPtb u.ptb ∧
      (known → u.ptb = { s.ptb with entries := s.ptb.entries.map fun e => if e.station = t.source then entry else e }) ∧
      (¬ known → s.ptb.entries.length < 24 → u.ptb.overflow = s.ptb.overflow ∧ u.ptb.entries.Perm (entry :: s.ptb.entries)) ∧
      (¬ known → 24 ≤ s.ptb.entries.length → ascending (s.ptb.entries.map PeerEntry.station) = true → ∀ q ∈ s.ptb.entries,
        (∀ e ∈ s.ptb.entries, since s.nowMs e.lastHeard < since s.nowMs q.lastHeard ∨
          (e.lastHeard = q.lastHeard ∧ q.station ≤ e.station)) →
        let fresh := ∃ d, q.lastDigest = some d ∧ since s.nowMs d ≤ 2 * (64 * c.sampleInterval)
        (fresh → u.ptb = { s.ptb with overflow := if s.ptb.overflow < 65535 then s.ptb.overflow + 1 else s.ptb.overflow }) ∧
        (¬ fresh → u.ptb.overflow = s.ptb.overflow ∧
          u.ptb.entries.Perm (entry :: s.ptb.entries.filter fun e => decide (e.station ≠ q.station))))

/-- What is offered to the array bus (R34 to R37, R39, R40), in RUN alone (R32, R43): a claim or digest of which one is queued replaces its
body in place; a new entry goes to the back, a new claim to the front; in a full queue a claim drives out the last entry, which is
counted, and any other entry is refused and counted. An entry taken into an empty transmitter waits for the line or begins a deferral of
its class's range; a claim taken in a running deferral draws again from the same start, and transmission begins at once where that time
has passed. The draws are free (assumption log 9). A digest and a claim are offered as the single entry of their kind, and a reply as a
new entry for its requester, with no attempt made (R163, R35 to R37). -/
def Obligations.OffersTakeTheirPlaceInTheQueue : Prop :=
  ∀ (c : Settings) (now dest : Nat) (body : List Byte) (a : Abu),
    let dropped : Tally := { a.tally with txDropped := satSucc 65535 a.tally.txDropped }
    let urgentFrom := fun (startTime : Nat) (b t : Abu) (e : TxEntry) (rest : List TxEntry) =>
      ∃ slots, slots ≤ 3 ∧
        (now < startTime + 200 * slots → t = { b with
          tx := .deferring, deferral := some ⟨startTime, slots⟩, queue := e :: rest, draws := b.draws + 1 }) ∧
        (startTime + 200 * slots ≤ now → t = { b with
          tx := .sending, deferral := none, frame := e.frame c, readBack := 0, queue := { e with inFlight := true } :: rest, draws := b.draws + 1 })
    (∀ (offer : Settings → Nat → Abu → Abu) (s : State),
      (s.settings = none ∨ s.abu.silent = true → offerToBus offer s = s) ∧
      (∀ c', s.settings = some c' → s.abu.silent = false → offerToBus offer s = s.withAbu (offer c' s.timeUs s.abu))) ∧
    (offerDigest body = offerToBus (fun c' now' b => b.offerSingle c' now' .digest body) ∧
      offerClaim body = offerToBus (fun c' now' b => b.offerSingle c' now' .arcClaim body) ∧
      offerReply dest body = offerToBus (fun c' now' b => b.offerNew c' now' ⟨.reply, dest, body, 0, false, false⟩)) ∧
    (∀ kind, (∃ e ∈ a.queue, e.kind = kind) →
      a.offerSingle c now kind body = { a with queue := a.queue.map fun e =>
        if e.kind = kind then { e with body := body, attempts := 0, replaced := e.inFlight } else e }) ∧
    (∀ kind, (∀ e ∈ a.queue, e.kind ≠ kind) → a.offerSingle c now kind body = a.offerNew c now ⟨kind, 0, body, 0, false, false⟩) ∧
    (∀ kind, kind ≠ .arcClaim →
      let e : TxEntry := ⟨kind, dest, body, 0, false, false⟩
      let t := a.offerNew c now e
      (8 ≤ a.queue.length → t = { a with tally := dropped }) ∧
      (a.queue.length < 8 →
        (a.tx ≠ .empty → t = { a with queue := a.queue ++ [e] }) ∧
        (a.tx = .empty → a.rx ≠ .ready → t = { a with queue := a.queue ++ [e], tx := .waiting }) ∧
        (a.tx = .empty → a.rx = .ready → a.queue = [] → ∃ slots, 4 ≤ slots ∧ slots ≤ 19 ∧
          t = { a with queue := [e], tx := .deferring, deferral := some ⟨now, slots⟩, draws := a.draws + 1 }))) ∧
    (let e : TxEntry := ⟨.arcClaim, 0, body, 0, false, false⟩
      let t := a.offerNew c now e
      let rest := if 8 ≤ a.queue.length then a.queue.dropLast else a.queue
      let taken : Abu := { a with queue := e :: rest, tally := if 8 ≤ a.queue.length then dropped else a.tally }
      (a.tx = .waiting ∨ a.tx = .sending ∨ (a.tx = .deferring ∧ a.deferral = none) → t = taken) ∧
      (a.tx = .empty → a.rx ≠ .ready → t = { taken with tx := .waiting }) ∧
      (a.tx = .empty → a.rx = .ready → urgentFrom now taken t e rest) ∧
      (∀ d, a.tx = .deferring → a.deferral = some d → urgentFrom d.start taken t e rest))

/-- The idle gap and the deferral (R24, R26, R39, R41): 640 microseconds after the last byte the receiver is READY, a telegram in
progress counts BYTE_DISCARD, and a waiting entry begins a deferral of 4 to 19 slots, or 0 to 3 for an urgent head (of 0 slots the
transmission begins at once); a deferral that runs out sends the head's frame. The number drawn is free (assumption log 9); that a
DEFERRAL_EXPIRY before its time only lets time pass is the model's choice (assumption log 2). -/
def Obligations.IdleGapBeginsADeferralThatSends : Prop :=
  ∀ (dt : Nat) (start : State) (c : Settings),
    let s := start.arrive dt
    let now := s.timeUs
    s.settings = some c →
    (s.abu.tx ≠ .sending → s.abu.rx ≠ .ready → s.abu.lastByteEnd + 640 ≤ now →
      ∃ t, exec (.idleGapExpiry dt) start = .next t ∧ t.abu.rx = .ready ∧ t.abu.taken = []
        ∧ t.abu.tally = (if s.abu.rx = .gapWait then s.abu.tally else
            { s.abu.tally with byteDiscard := satSucc 65535 s.abu.tally.byteDiscard })
        ∧ (s.abu.queue = [] → t.abu.tx = s.abu.tx ∧ t.abu.deferral = s.abu.deferral ∧ t.abu.queue = [])
        ∧ (∀ e rest, s.abu.queue = e :: rest → e.kind ≠ .arcClaim →
            t.abu.tx = .deferring ∧ t.abu.queue = e :: rest ∧
            ∃ d, t.abu.deferral = some d ∧ d.start = now ∧ 4 ≤ d.slots ∧ d.slots ≤ 19)
        ∧ (∀ e rest, s.abu.queue = e :: rest → e.kind = .arcClaim →
            (t.abu.tx = .deferring ∧ t.abu.queue = e :: rest ∧ ∃ d, t.abu.deferral = some d ∧ d.start = now ∧ 1 ≤ d.slots ∧ d.slots ≤ 3) ∨
            (t.abu.tx = .sending ∧ t.abu.deferral = none ∧ t.abu.queue = { e with inFlight := true, replaced := false } :: rest))) ∧
    (∀ d e rest, s.abu.tx = .deferring → s.abu.rx = .ready → s.abu.deferral = some d → d.start + 200 * d.slots ≤ now →
      s.abu.queue = e :: rest →
      let covered := [e.kind.code, byteOf c.station, byteOf e.dest, byteOf c.feeder, byteOf e.body.length] ++ e.body
      exec (.deferralExpiry dt) start = .next (s.withAbu { s.abu with
        tx := .sending, deferral := none, readBack := 0, frame := covered ++ be16 (crc16 covered).toNat
        queue := { e with inFlight := true, replaced := false } :: rest })) ∧
    (∀ d, s.abu.deferral = some d → now < d.start + 200 * d.slots → exec (.deferralExpiry dt) start = .next s)

/-- The end of a transmission (R28, R41, R42): the receiver waits out an idle gap from now; a sent entry leaves the queue, a collided
one stays with one attempt more until its class's limit, and one whose body was replaced in flight stays with attempts 0. A read-back
byte that agrees and is not the last goes on, the last completes, and one that differs or has a stop error collides. That
TRANSMISSION_COMPLETE stands for the reading back of all that is still to come, and that COLLISION and the BYTE_ARRIVAL of the byte that
differs are one event, is assumption log 13. -/
def Obligations.TransmissionEndsByCompletionOrCollision : Prop :=
  ∀ (dt : Nat) (start : State),
    let s := start.arrive dt
    s.abu.tx = .sending →
    let ended := fun (q : List TxEntry) (tally : Tally) => s.withAbu { s.abu with
      rx := .gapWait, taken := [], lastByteEnd := s.timeUs, frame := [], readBack := 0, queue := q, tally := tally
      tx := if q.isEmpty then .empty else .waiting }
    let kept := fun e : TxEntry => { e with attempts := 0, inFlight := false, replaced := false }
    let spent := fun e : TxEntry => decide ((if e.kind = .arcClaim then 16 else 8) ≤ e.attempts + 1)
    let collisions := { s.abu.tally with collisions := satSucc 65535 s.abu.tally.collisions }
    let dropped := s.abu.queue.any fun e => e.inFlight && !e.replaced && spent e
    exec (.transmissionComplete dt) start = .next (ended (s.abu.queue.filterMap fun e =>
      if e.inFlight then (if e.replaced then some (kept e) else none) else some e) s.abu.tally) ∧
    exec (.collision dt) start = .next (ended (s.abu.queue.filterMap fun e =>
        if e.inFlight then
          (if e.replaced then some (kept e)
            else if spent e then none else some { e with attempts := e.attempts + 1, inFlight := false })
        else some e)
      (if dropped then { collisions with txDropped := satSucc 65535 collisions.txDropped } else collisions)) ∧
    (s.settings ≠ none → ∀ b stopError,
      (stopError = true ∨ s.abu.frame[s.abu.readBack]? ≠ some b → exec (.byteArrival dt b stopError) start = exec (.collision dt) start) ∧
      (stopError = false → s.abu.frame[s.abu.readBack]? = some b → s.abu.readBack + 1 = s.abu.frame.length →
        exec (.byteArrival dt b stopError) start = exec (.transmissionComplete dt) start) ∧
      (stopError = false → s.abu.frame[s.abu.readBack]? = some b → s.abu.readBack + 1 ≠ s.abu.frame.length →
        exec (.byteArrival dt b stopError) start = .next (s.withAbu { s.abu with
          readBack := s.abu.readBack + 1, lastByteEnd := s.timeUs })))

/-! ### Requests (R163 to R172, R182, R183) -/

/-- The checks of R164 and R183 on the oldest delivered request: an ISOLATE, RELEASE or ACKNOWLEDGE of a station that is no operator
station is NOT_PERMITTED, a wrong argument length or body length is BAD_ARGUMENT, and neither changes anything but the replies. A
command whose kind is not that of the oldest request, or that finds none, lets time pass (assumption log 2), and so does one that comes
in UNCOMMISSIONED, a READ_STATUS among them (assumption logs 2 and 29). -/
def Obligations.RequestsFailTheirChecksInOrder : Prop :=
  ∀ (dt : Nat) (start : State) (command : Instr) (code argLen : Nat) (operatorOnly : Bool),
    (command, code, argLen, operatorOnly) ∈ [(Instr.isolate dt, 1, 2, true), (.release dt, 2, 3, true), (.acknowledge dt, 3, 2, true),
      (.readStatus dt, 4, 0, false), (.readStrings dt, 5, 2, false), (.readLog dt, 6, 3, false), (.readTally dt, 7, 0, false)] →
    let s := start.arrive dt
    (s.settings = none ∨ s.requests = [] → exec command start = .next s) ∧
    ∀ (c : Settings) (r : Request) (rest : List Request), s.settings = some c → s.requests = r :: rest →
      let taken := s.withRequests rest
      let operator := r.source ≠ 0 ∧ r.source ∈ c.operators
      let sized := (r.body.getD 2 0).toNat = argLen ∧ r.body.length = 3 + argLen
      let reply := fun result : Byte => [r.body.getD 0 0, r.body.getD 1 0, result]
      ((r.body.getD 0 0).toNat = code → operatorOnly = true → ¬ operator →
        exec command start = .next (offerReply r.source (reply 1) taken)) ∧
      ((r.body.getD 0 0).toNat = code → operatorOnly = false ∨ operator → ¬ sized →
        exec command start = .next (offerReply r.source (reply 2) taken)) ∧
      ((r.body.getD 0 0).toNat ≠ code → exec command start = .next s)

/-- ISOLATE (R165, R145): every named present string gets MANUAL and a demand with reason MANUAL and the ramp steps setting, whatever its
path state; the reply carries the mask and one outcome for each named string, as the paths stood; a mask that names none, or a string
above 12, is BAD_ARGUMENT. That nothing falls between the read of the paths and the hand-over of the mask is the model's choice
(assumption log 35). -/
def Obligations.IsolateHoldsAndOpensTheNamedStrings : Prop :=
  ∀ (dt : Nat) (start : State) (c : Settings) (rest : List Request) (source : Nat) (tag hi lo : Byte),
    let s := start.arrive dt
    s.settings = some c → s.requests = ⟨source, [1, tag, 2, hi, lo]⟩ :: rest → source ≠ 0 → source ∈ c.operators →
    let mask := hi.toNat * 256 + lo.toNat
    let named := StringIdx.all.filter fun i => mask.testBit i.val
    (mask = 0 ∨ 4096 ≤ mask →
      exec (.isolate dt) start = .next (offerReply source [1, tag, 2] (s.withRequests rest))) ∧
    (mask ≠ 0 → mask < 4096 → ∃ u, u.requests = rest ∧ u.abu = s.abu ∧ u.flg = s.flg ∧ u.acu = s.acu ∧ u.boxTrip = s.boxTrip ∧
      exec (.isolate dt) start = .next (offerReply source ([1, tag, 0, hi, lo] ++ named.map (fun i =>
        if c.strings[i].present = false then (7 : Byte)
        else if (s.path i).state = .closed ∨ (s.path i).state = .making ∨ (s.path i).state = .closing then 1 else 2)) u) ∧
      ∀ i : StringIdx,
        (i ∉ named ∨ c.strings[i].present = false → u.path i = s.path i ∧ u.hold i = s.hold i) ∧
        (i ∈ named → c.strings[i].present = true →
          u.path i = (s.path i).demanded s.nowMs .manual c.rampSteps
            ∧ (u.hold i).manual = true ∧ (u.hold i).voltageRecheck = none ∧ (u.hold i).lockout = (s.hold i).lockout
            ∧ (u.hold i).shutdown = (s.hold i).shutdown ∧ (u.hold i).retryCount = (s.hold i).retryCount))

/-- RELEASE (R166, R167, R146, R137): the first condition that holds gives each named string its outcome; a RELEASED string loses LOCKOUT,
MANUAL, RETRY and its switch suspect, and keeps SHUTDOWN and STARTUP; with the flag the latch is cleared and the box trip line drops
unless a string is STUCK or suspect; the reply carries the line as it is then. A RELEASED string that SHUTDOWN or STARTUP still holds
stays as it was; one without a hold goes to MAKING when the voltage check passes, and else stays ISOLATED with VOLTAGE_WAIT for 60 s
(R142). That nothing sets the latch again between the latch clear and the trip clear is the model's choice (assumption log 31).
That the notices of a change are taken in its step, and a close permission in the step of its consideration, is the model's choice
(assumption logs 37 and 38). -/
def Obligations.ReleaseFollowsItsConditions : Prop :=
  ∀ (dt : Nat) (start : State) (c : Settings) (rest : List Request) (source : Nat) (tag hi lo flag : Byte),
    let s := start.arrive dt
    s.settings = some c → s.requests = ⟨source, [2, tag, 3, hi, lo, flag]⟩ :: rest → source ≠ 0 → source ∈ c.operators →
    let mask := hi.toNat * 256 + lo.toNat
    let named := StringIdx.all.filter fun i => mask.testBit i.val
    let outcome : StringIdx → Byte := fun i =>
      if c.strings[i].present = false then 7
      else if (s.path i).state = .stuck then 6
      else if (s.path i).state ≠ .isolated then 4
      else if ((s.flg.records.filter fun r => decide (r.string = i)).getLast?).any (fun r => r.ackBy.isNone) then 5
      else 3
    (4096 ≤ mask ∨ 1 < flag.toNat ∨ (mask = 0 ∧ flag = 0) →
      exec (.release dt) start = .next (offerReply source [2, tag, 2] (s.withRequests rest))) ∧
    (mask < 4096 → flag = 0 ∨ flag = 1 → mask ≠ 0 ∨ flag = 1 → ∃ u, u.requests = rest ∧ u.abu = s.abu ∧ u.flg = s.flg ∧
      exec (.release dt) start = .next (offerReply source ([2, tag, 0, hi, lo, flagByte u.boxTrip] ++ named.map outcome) u) ∧
      (flag = 0 → u.acu = s.acu ∧ u.boxTrip = s.boxTrip) ∧
      (flag = 1 → u.acu = { s.acu with latch := false } ∧ u.boxTrip = (s.boxTrip && (u.anyStuck || u.anySuspect))) ∧
      ∀ i : StringIdx,
        (i ∉ named ∨ outcome i ≠ 3 → u.path i = s.path i ∧ u.hold i = s.hold i) ∧
        (i ∈ named → outcome i = 3 →
          let h := s.hold i
          let held := h.shutdown = true ∨ h.startupUntil ≠ none
          let left : Hold := { h with
            lockout := false, manual := false, retryUntil := none, voltageRecheck := none, retryCount := 0, suspect := false }
          let close := ((s.sfe.voltages[i] : Int) - (s.sfe.bus : Int)).natAbs ≤ c.voltageWindow
          (held → u.path i = s.path i ∧ u.hold i = left) ∧
          (¬ held → close → u.hold i = left ∧ u.wac.pathChanged = true ∧ u.path i = { s.path i with
            state := .making, deadline := some (s.nowMs + ms 30), isolationStart := none }) ∧
          (¬ held → ¬ close → u.path i = s.path i ∧ u.hold i = { left with voltageRecheck := some (s.nowMs + ms 60000) })))

/-- ACKNOWLEDGE (R168, R159): every record up to and including S that no station had acknowledged is acknowledged by the requester; the
lost count returns to 0 when S is the newest; a DONE reply carries the indicator line; an S not in the log is STALE_SEQUENCE and S = 0
is BAD_ARGUMENT. -/
def Obligations.AcknowledgeCoversTheLogUpToS : Prop :=
  ∀ (dt : Nat) (start : State) (c : Settings) (rest : List Request) (source : Nat) (tag hi lo : Byte),
    let s := start.arrive dt
    s.settings = some c → s.requests = ⟨source, [3, tag, 2, hi, lo]⟩ :: rest → source ≠ 0 → source ∈ c.operators →
    let number := hi.toNat * 256 + lo.toNat
    let taken := s.withRequests rest
    (number = 0 → exec (.acknowledge dt) start = .next (offerReply source [3, tag, 2] taken)) ∧
    (number ≠ 0 → (∀ r ∈ s.flg.records, r.seq ≠ number) → exec (.acknowledge dt) start = .next (offerReply source [3, tag, 3] taken)) ∧
    (number ≠ 0 → ∀ before r after, s.flg.records = before ++ r :: after → r.seq = number → (∀ q ∈ before ++ after, q.seq ≠ number) →
      let log : Flg := { s.flg with
        records := (before ++ [r]).map (fun q => if q.ackBy = none then { q with ackBy := some source } else q) ++ after
        lost := if after = [] then 0 else s.flg.lost }
      exec (.acknowledge dt) start =
        .next (offerReply source [3, tag, 0, flagByte (log.records.any (fun q => q.ackBy.isNone) || decide (0 < log.lost))] (taken.withFlg log)))

/-- The reads (R169 to R172): each answers DONE from the state as it stands and changes nothing but the replies, save that READ_TALLY
sets the seven counts to 0. The status bytes stand where the status block puts them; the reports and records are those of section 12.3
(ReportsAndRecordsFollowTheirLayouts). That READ_STATUS and READ_STRINGS read every owner at one moment is the model's choice (assumption
log 34). -/
def Obligations.ReadsReportTheStateAsItStands : Prop :=
  ∀ (dt : Nat) (start : State) (c : Settings) (rest : List Request) (source : Nat) (tag : Byte),
    let s := start.arrive dt
    s.settings = some c →
    let taken := s.withRequests rest
    (s.requests = ⟨source, [4, tag, 0]⟩ :: rest → ∃ block,
      exec (.readStatus dt) start = .next (offerReply source ([4, tag, 0] ++ block) taken) ∧ block.length = 28
        ∧ block.getD 0 0 = 1
        ∧ (∀ k : Fin 8, block.getD (1 + k.val) 0 = byteOf (s.countIn (PathState.all.getD k.val .closed)))
        ∧ block.getD 9 0 = flagByte s.boxTrip ∧ block.getD 10 0 = flagByte s.acu.latch ∧ block.getD 11 0 = flagByte s.indicator
        ∧ block.getD 12 0 = byteOf s.flg.lost ∧ block.getD 13 0 = flagByte s.hld.input ∧ block.getD 14 0 = flagByte s.hld.pageLost
        ∧ block.getD 15 0 = flagByte s.wac.boxValid ∧ block.getD 16 0 = byteOf s.ptb.entries.length
        ∧ block.getD 17 0 = byteOf (s.ptb.entries.filter fun e =>
            e.lastDigest.any fun d => decide (since s.nowMs d ≤ 2 * (64 * c.sampleInterval))).length
        ∧ block.getD 18 0 = byteOf (s.ptb.entries.filter fun e => decide (e.feeder = c.feeder)).length
        ∧ (block.drop 19).take 2 = be16 s.ptb.overflow ∧ block.getD 21 0 = byteOf s.nvs.lastReset.code
        ∧ (block.drop 22).take 2 = signed16 s.sfe.total ∧ (block.drop 24).take 2 = be16 s.sfe.bus ∧ block.drop 26 = be16 s.sfe.score) ∧
    (∀ first count : Byte, s.requests = ⟨source, [5, tag, 2, first, count]⟩ :: rest →
      (1 ≤ first.toNat → 1 ≤ count.toNat → count.toNat ≤ 5 → first.toNat + count.toNat ≤ 13 → ∃ reports,
        exec (.readStrings dt) start = .next (offerReply source ([5, tag, 0, first, count] ++ reports) taken)
          ∧ reports.length = 23 * count.toNat
          ∧ ∀ (i : StringIdx), first.toNat ≤ i.val + 1 → i.val + 1 < first.toNat + count.toNat →
              (reports.drop (23 * (i.val + 1 - first.toNat))).take 23 = stringReport c s i) ∧
      (first = 0 ∨ 12 < first.toNat ∨ count = 0 ∨ 5 < count.toNat ∨ 13 < first.toNat + count.toNat →
        exec (.readStrings dt) start = .next (offerReply source [5, tag, 2] taken))) ∧
    (∀ hi lo count : Byte, s.requests = ⟨source, [6, tag, 3, hi, lo, count]⟩ :: rest →
      let first := hi.toNat * 256 + lo.toNat
      (count = 0 ∨ 8 < count.toNat → exec (.readLog dt) start = .next (offerReply source [6, tag, 2] taken)) ∧
      (1 ≤ count.toNat → count.toNat ≤ 8 → first ≠ 0 → (∀ r ∈ s.flg.records, r.seq ≠ first) →
        exec (.readLog dt) start = .next (offerReply source [6, tag, 3] taken)) ∧
      (1 ≤ count.toNat → count.toNat ≤ 8 → ∀ before after, s.flg.records = before ++ after →
        (first = 0 ∧ before = []) ∨ (first ≠ 0 ∧ (after.head?.map FaultRecord.seq) = some first ∧ ∀ r ∈ before, r.seq ≠ first) →
        exec (.readLog dt) start = .next (offerReply source
          ([6, tag, 0, byteOf (after.take count.toNat).length] ++ ((after.take count.toNat).map FaultRecord.bytes).flatten) taken))) ∧
    (s.requests = ⟨source, [7, tag, 0]⟩ :: rest →
      exec (.readTally dt) start = .next (offerReply source
        ([7, tag, 0] ++ be16 s.abu.tally.valid ++ be16 s.abu.tally.crcDiscard ++ be16 s.abu.tally.byteDiscard
          ++ be16 s.abu.tally.headerIgnored ++ be16 s.abu.tally.collisions ++ be16 s.abu.tally.txDropped
          ++ be16 s.abu.tally.repliesSuperseded)
        (taken.withAbu { s.abu with tally := ⟨0, 0, 0, 0, 0, 0, 0⟩ })))

/-- The layouts of section 12.3. A fault record is 14 bytes: number, string and cause, seconds, detail, reference, contributors, outcome
and the acknowledged bit, station. A string report is 23 bytes: flags and group, weight, the latest and last values, verdict and standing,
deviation, group reading, strikes and retries, path state and reason, drive level, holds. Bytes 16 to 18 of a present string of groups 0
to 7 with no group record follow the table, 0, 0 and 0xFF, where R68 has such a reference read UNAVAILABLE with count 0 (the model's
choice, assumption log 28). That bits to which the section gives no meaning are sent as 0 is the model's choice (assumption log 32). -/
def Obligations.ReportsAndRecordsFollowTheirLayouts : Prop :=
  let byte := fun (l : List Byte) (k : Nat) => (l.getD k 0).toNat
  let word := fun l k => byte l k * 256 + byte l (k + 1)
  let signed := fun l k => (BitVec.ofNat 16 (word l k)).toInt
  (∀ r : FaultRecord, r.seq ≤ 65535 → r.seconds < 2 ^ 32 → -32768 ≤ r.detail → r.detail ≤ 32767 →
    -32768 ≤ r.reference.getD 0 → r.reference.getD 0 ≤ 32767 → r.contributors.getD 0 ≤ 255 → r.ackBy.getD 0 ≤ 255 →
    let l := r.bytes
    l.length = 14 ∧ word l 0 = r.seq ∧ byte l 2 / 16 = r.string.val + 1 ∧ byte l 2 % 16 = r.cause.code
      ∧ word l 3 * 65536 + word l 5 = r.seconds ∧ signed l 7 = r.detail ∧ signed l 9 = r.reference.getD 0
      ∧ byte l 11 = r.contributors.getD 0 ∧ byte l 12 % 128 = r.outcome.code ∧ (byte l 12 / 128 = 1 ↔ r.ackBy ≠ none)
      ∧ byte l 13 = r.ackBy.getD 0) ∧
  ∀ (c : Settings) (s : State) (i : StringIdx),
    let l := stringReport c s i
    let own := c.strings[i]
    let r := s.rfu.strings[i]
    let h := s.hold i
    let p := s.path i
    let bit := fun (k j : Nat) => (byte l k).testBit j
    l.length = 23 ∧ bit 0 7 = own.present ∧ bit 0 5 = h.suspect ∧ bit 0 4 = false ∧
    (own.present = true → own.group ≤ 15 → own.weight ≤ 65535 →
      bit 0 6 = decide (own.action = .reportOnly) ∧ byte l 0 % 16 = own.group ∧ word l 1 = own.weight) ∧
    (own.present = false → bit 0 6 = false ∧ byte l 0 % 16 = 0 ∧ word l 1 = 0) ∧
    (l.drop 3).take 10 = signed16 s.sfe.currents[i] ++ be16 s.sfe.voltages[i] ++ be16 s.sfe.shares[i] ++ signed16 s.wac.means[i]
      ++ signed16 r.normalized ∧
    byte l 13 % 8 = (match r.verdict with
      | none => 0
      | some .full => 1
      | some .partialWindow => 2
      | some .dark => 3
      | some .held => 4) ∧ (bit 13 7 = true ↔ 0 < (s.adjOf i).strikes) ∧
    (l.drop 14).take 2 = signed16 (r.deviation.getD 0) ∧
    (own.present = false ∨ 8 ≤ own.group → word l 16 = 0 ∧ byte l 18 = 0xFF) ∧
    (∀ h8 : own.group < 8, s.rfu.groups[own.group] = none → word l 16 = 0 ∧ byte l 18 = 0xFF) ∧
    (∀ (h8 : own.group < 8) (record : GroupRecord), own.present = true → s.rfu.groups[own.group] = some record →
      record.contributors ≤ 255 → byte l 18 = record.contributors ∧ (record.reference = none → word l 16 = 0x8000) ∧
        ∀ reference, record.reference = some reference → (l.drop 16).take 2 = signed16 reference) ∧
    ((s.adjOf i).strikes ≤ 31 → h.retryCount ≤ 7 → byte l 19 % 32 = (s.adjOf i).strikes ∧ byte l 19 / 32 = h.retryCount) ∧
    byte l 20 / 16 = p.state.code ∧ byte l 20 % 16 = (if p.state = .closed then 0 else (p.reason.map Reason.code).getD 0) ∧
    (p.level ≤ 255 → byte l 21 = p.level) ∧
    bit 22 0 = h.lockout ∧ bit 22 1 = h.manual ∧ bit 22 2 = h.shutdown ∧ bit 22 3 = h.startupUntil.isSome ∧
    bit 22 4 = h.retryUntil.isSome ∧ bit 22 5 = h.voltageRecheck.isSome

/-! ### The store and the service link (R150, R176 to R181) -/

/-- A write completes (R150, R176, R179, R180): its page holds its content and nothing else has changed in the store since it began; an
ERASE_STORE clears the seal and a SEAL sets it; the DONE still owed is sent; with the pending flag a lockout page write with the
present masks begins, else the write state is IDLE. -/
def Obligations.WritesCompleteWithTheirContent : Prop :=
  ∀ (dt : Nat) (start : State) (w : Write) (command : Instr),
    let s := start.arrive dt
    (command, w.kind) ∈ [(Instr.lockoutPageWriteComplete dt, WriteKind.lockoutPage), (.programComplete dt, .program),
      (.eraseComplete dt, .erase), (.sealComplete dt, .sealing)] →
    s.nvs.write = some w → reached s.nowMs w.done = true →
    ∃ t, exec command start = .next t ∧ t.nvs.pendingMask = false
      ∧ t.nvs.sealSet = (if w.kind = .erase then false else if w.kind = .sealing then true else s.nvs.sealSet)
      ∧ (s.nvs.pendingMask = false → t.nvs.write = none)
      ∧ (s.nvs.pendingMask = true → t.nvs.write =
          some ⟨.lockoutPage, 2, lockoutPageBytes s.lockoutMask s.manualMask, s.nowMs + ms 6, false⟩)
      ∧ t.svl = (if w.kind ≠ .lockoutPage ∧ w.answerOwed = true then s.svl.answer s.timeUs [0] else s.svl)
      ∧ ∀ a, (s.nvs.pendingMask = true → a / 64 ≠ 2) →
          let page := if w.kind = .program then w.page else 2
          (w.kind ≠ .erase → a / 64 = page → Memory.read t.nvs.store a = (w.content.take 64).getD (a % 64) 0xFF) ∧
          (w.kind = .erase ∨ a / 64 ≠ page → Memory.read t.nvs.store a = Memory.read s.nvs.store a)

/-- The service reads and LOAD_BUFFER in an open session (R178, R179): each answers at once as its rule states; LOAD_BUFFER writes the
buffer and the loaded page address, or is refused by the first check that fails; nothing else changes. The mask of READ_FACTORY has 0 in
its three bits without a channel (assumption log 32). An answer follows those not yet sent, begins when it is ready and the link is free,
takes ten bit times a byte at 19 200 bit/s, rounded up to a microsecond, and leaves the link free when it has been sent (the model's choice,
assumption log 16). -/
def Obligations.ServiceReadsAndLoadBuffer : Prop :=
  (∀ (bytes : List Byte) (u : State), sendAnswer bytes u = u.withSvl (u.svl.answer u.timeUs bytes)) ∧
  (∀ (now : Nat) (bytes : List Byte) (v : Svl),
    let sentAt := max now v.linkFree + (bytes.length * 10 * 1000000 + 19199) / 19200
    v.answer now bytes = { v with
      answers := (v.answers.filter fun a => decide (now < a.sentAt)) ++ [⟨bytes, sentAt⟩], linkFree := sentAt }) ∧
  ∀ (dt : Nat) (start : State),
    let s := start.arrive dt
    s.svl.session = .opened → s.svl.receiving = [] → s.svl.skipping = false → since s.nowMs s.svl.lastByte < 10000 →
    let t := s.withSvl { s.svl with lastByte := s.nowMs }
    exec (.readFactory dt) start = .next (sendAnswer (0 :: (s.nvs.store.page 3 ++
      be16 (maskOf (fun i => s.sfe.trims[i].replaced) + 4096 * s.sfe.totalTrim.replaced.toNat))) t) ∧
    (∀ page : Byte, exec (.readPage dt [page]) start =
      .next (sendAnswer (if page.toNat ≤ 3 then 0 :: s.nvs.store.page page.toNat else [1]) t)) ∧
    exec (.verifyPage dt) start = .next (sendAnswer (if s.nvs.write.any (fun w => decide (w.kind ≠ .lockoutPage)) then [3]
      else [0, byteOf ((s.nvs.buffer.zip (s.nvs.store.page s.svl.loadedPage)).filter fun p => decide (p.1 ≠ p.2)).length]) t) ∧
    (∀ (page : Byte) (content : List Byte), content.length = 64 →
      (3 < page.toNat → exec (.loadBuffer dt (page :: content)) start = .next (sendAnswer [1] t)) ∧
      (page.toNat ≤ 3 → s.presentIsolated = false → exec (.loadBuffer dt (page :: content)) start = .next (sendAnswer [2] t)) ∧
      (page.toNat ≤ 3 → s.presentIsolated = true → s.nvs.write ≠ none →
        exec (.loadBuffer dt (page :: content)) start = .next (sendAnswer [3] t)) ∧
      (page.toNat ≤ 3 → s.presentIsolated = true → s.nvs.write = none →
        exec (.loadBuffer dt (page :: content)) start = .next (sendAnswer [0]
          ((t.withNvs { s.nvs with buffer := content }).withSvl { t.svl with loadedPage := page.toNat }))))

/-- The programming commands without argument in an open session (R178 to R181): STRINGS_CLOSED, then BUSY, then the command's own
condition; otherwise the write begins, its pages erased and DONE owed at its completion, or RESTART answers DONE and arranges the
reset for when that answer has been sent, a RESTART after it leaving the moment of the first (assumption log 17). -/
def Obligations.ProgrammingCommandsBeginTheirWrites : Prop :=
  ∀ (dt : Nat) (start : State),
    let s := start.arrive dt
    s.svl.session = .opened → s.svl.receiving = [] → s.svl.skipping = false → since s.nowMs s.svl.lastByte < 10000 →
    let t := s.withSvl { s.svl with lastByte := s.nowMs }
    let begins := fun (kind : WriteKind) (page : Nat) (content : List Byte) (span : Nat) (pages : List Nat) =>
      t.withNvs { s.nvs with
        store := pages.foldl Memory.erasePage s.nvs.store, write := some ⟨kind, page, content, s.nowMs + ms span, true⟩ }
    let done := sendAnswer [0] t
    (∀ command ∈ [Instr.programPage dt, .eraseStore dt, .sealStore dt, .restart dt],
      (s.presentIsolated = false → exec command start = .next (sendAnswer [2] t)) ∧
      (s.presentIsolated = true → s.nvs.write ≠ none → exec command start = .next (sendAnswer [3] t))) ∧
    (s.presentIsolated = true → s.nvs.write = none →
      (2 ≤ s.svl.loadedPage → exec (.programPage dt) start = .next (sendAnswer [1] t)) ∧
      (s.svl.loadedPage < 2 → s.nvs.sealSet = true → exec (.programPage dt) start = .next (sendAnswer [4] t)) ∧
      (s.svl.loadedPage < 2 → s.nvs.sealSet = false →
        exec (.programPage dt) start = .next (begins .program s.svl.loadedPage s.nvs.buffer 6 [s.svl.loadedPage])) ∧
      exec (.eraseStore dt) start = .next (begins .erase 0 [] 12 [0, 1, 2]) ∧
      (s.nvs.sealSet = true → exec (.sealStore dt) start = .next (sendAnswer [4] t)) ∧
      (s.nvs.sealSet = false → offendingField s.nvs.store ≠ 0 → exec (.sealStore dt) start = .next (sendAnswer [5] t)) ∧
      (s.nvs.sealSet = false → offendingField s.nvs.store = 0 →
        exec (.sealStore dt) start = .next (begins .sealing 2 (lockoutPageBytes 0 0) 6 [2])) ∧
      (s.svl.restart = none → exec (.restart dt) start = .next (done.withSvl { done.svl with restart := some done.svl.linkFree })) ∧
      (∀ first, s.svl.restart = some first → exec (.restart dt) start = .next (done.withSvl { done.svl with restart := some first })))

/-- The session (R177): ENTER opens it with the echo and its answer, and in OPEN answers again; an unknown byte is BAD_COMMAND and
bytes are passed over; 100 ms of silence or a stop error drop the command being received; a stop error returns an entry state to NONE;
10 s of silence end the session. The silences are measured on the millisecond uptime by difference. That a byte with a stop error
restarts the silence as any byte does is deduced (assumption log 18); that the end of a session cuts off an answer that is being sent is
the model's choice (assumption log 36). -/
def Obligations.SessionOpensAndEnds : Prop :=
  ∀ (dt : Nat) (start : State),
    let s := start.arrive dt
    let silent := since s.nowMs s.svl.lastByte
    let t := s.withSvl { s.svl with lastByte := s.nowMs }
    let report := fun u : State =>
      [byteOf u.mode.code, byteOf u.nvs.offending, flagByte u.nvs.sealSet, flagByte u.nvs.write.isSome, byteOf u.nvs.lastReset.code]
    (∀ x y : Byte, s.svl.receiving = [] → s.svl.skipping = false →
      s.svl.session = .none ∨ (s.svl.session = .opened ∧ silent < 10000) →
      exec (.enter dt [0x5C, x, y]) start =
        .next (sendAnswer (report s) (sendAnswer [0x5C] (t.withSvl { t.svl with session := .opened })))) ∧
    (∀ b : Byte, b ∉ serviceCommandBytes → s.svl.session = .opened → s.svl.receiving = [] → s.svl.skipping = false →
      silent < 10000 →
      exec (.unknownCommandByte dt b) start =
        .next ((sendAnswer [6] t).withSvl { (sendAnswer [6] t).svl with receiving := [], skipping := true })) ∧
    (s.svl.session = .opened → 100 ≤ silent →
      exec (.commandTimeout dt) start = .next (s.withSvl { s.svl with receiving := [], skipping := false })) ∧
    (silent < 100 →
      (s.svl.session = .entry1 ∨ s.svl.session = .entry2 ∨ s.svl.session = .entry3 →
        exec (.serviceStopError dt) start = .next (t.withSvl { t.svl with session := .none })) ∧
      (s.svl.session = .opened → exec (.serviceStopError dt) start = .next (t.withSvl { t.svl with receiving := [] })) ∧
      (s.svl.session = .none → exec (.serviceStopError dt) start = .next t)) ∧
    (s.svl.session ≠ .none → 10000 ≤ silent →
      ∃ u, exec (.sessionTimeout dt) start = .next u ∧ u.svl.session = .none ∧ u.svl.receiving = [] ∧ u.svl.skipping = false
        ∧ u.svl.answers = [] ∧ u.svl.loadedPage = s.svl.loadedPage ∧ u.nvs.buffer = s.nvs.buffer ∧ u.nvs.store = s.nvs.store
        ∧ (∀ w, s.nvs.write = some w → u.nvs.write = some { w with answerOwed := false }) ∧ (s.nvs.write = none → u.nvs.write = none)
        ∧ u = ((s.withSvl u.svl).withNvs u.nvs))

/-! ### What every step keeps -/

/-- Every step keeps the path records whole (R118, R119), with the open demands on their way within the ramp steps, and so no relay is
ever open with the drive above 0 (R127). -/
def Obligations.StepKeepsPathRecordsWhole : Prop :=
  (∀ s : State, s.pathsOk = true → s.relaysSafe = true) ∧
  ∀ s t : State, s.pathsOk = true → step s = .next t → t.pathsOk = true

/-- Every step keeps the box trip line asserted while a string is STUCK or the latch is set (R136, R115). -/
def Obligations.StepKeepsTheBoxTripLine : Prop := ∀ s t : State, s.tripOk = true → step s = .next t → t.tripOk = true

/-- Every step keeps the holds in order (R139, R143, R144): VOLTAGE_WAIT stands alone, the retry count is within the budget, a string
that is not present has no hold, and closed-since is present exactly in CLOSED. -/
def Obligations.StepKeepsHoldsInOrder : Prop := ∀ s t : State, s.holdsOk = true → step s = .next t → t.holdsOk = true

/-- Every step keeps the transmit queue legal (R34) and the tally within its range (R33). -/
def Obligations.StepKeepsTheTransmitQueueLegal : Prop :=
  ∀ s t : State, s.abu.queueOk = true → s.abu.tally.ok = true → step s = .next t → t.abu.queueOk = true ∧ t.abu.tally.ok = true

/-- Every step keeps the fault log a run of consecutive numbers with its acknowledged records in front (R155, R156). -/
def Obligations.StepKeepsTheFaultLogInOrder : Prop := ∀ s t : State, s.flg.ok = true → step s = .next t → t.flg.ok = true

/-- Every step keeps the store's canonical form (the model's own, assumption log 5), the peer table and the rival list within their
bounds (R44, R104), the strikes below the persistence (R82), and the window within 64 samples (R10, R16). That the peer table's list
stands in ascending station number is the model's choice (assumption log 21; R44 gives its entries no order). -/
def Obligations.StepKeepsStoreAndTables : Prop :=
  ∀ s t : State, step s = .next t →
    (Memory.wf s.nvs.store = true → Memory.wf t.nvs.store = true) ∧ (s.peersOk = true → t.peersOk = true) ∧
    (s.rivalsOk = true → t.rivalsOk = true) ∧ (s.strikesOk = true → t.strikesOk = true) ∧ (s.wac.ok = true → t.wac.ok = true)

/-- The reset state meets every condition that the steps keep. -/
def Obligations.ResetStateIsSafe : Prop :=
  State.reset.pathsOk = true ∧ State.reset.tripOk = true ∧ State.reset.holdsOk = true ∧ State.reset.abu.queueOk = true
    ∧ State.reset.abu.tally.ok = true ∧ State.reset.flg.ok = true ∧ Memory.wf State.reset.nvs.store = true
    ∧ State.reset.peersOk = true ∧ State.reset.rivalsOk = true ∧ State.reset.strikesOk = true ∧ State.reset.wac.ok = true
end

