-- ==== Sys2Proof/Laws/State.lean ====
section
/-! SUPPORT. One lemma per field per update of State, each true by `rfl`, and the reads of one string's record after a write of it. -/

namespace Sys2Proof.Machine.State

section
variable (dt : Nat) (s : State)

@[simp] theorem elapse_timeUs : (s.elapse dt).timeUs = s.timeUs + dt := rfl
@[simp] theorem elapse_settings : (s.elapse dt).settings = s.settings := rfl
@[simp] theorem elapse_sfe : (s.elapse dt).sfe = s.sfe := rfl
@[simp] theorem elapse_wac : (s.elapse dt).wac = s.wac := rfl
@[simp] theorem elapse_abu : (s.elapse dt).abu = s.abu := rfl
@[simp] theorem elapse_ptb : (s.elapse dt).ptb = s.ptb := rfl
@[simp] theorem elapse_rfu : (s.elapse dt).rfu = s.rfu := rfl
@[simp] theorem elapse_adj : (s.elapse dt).adj = s.adj := rfl
@[simp] theorem elapse_acu : (s.elapse dt).acu = s.acu := rfl
@[simp] theorem elapse_paths : (s.elapse dt).paths = s.paths := rfl
@[simp] theorem elapse_boxTrip : (s.elapse dt).boxTrip = s.boxTrip := rfl
@[simp] theorem elapse_hld : (s.elapse dt).hld = s.hld := rfl
@[simp] theorem elapse_nvs : (s.elapse dt).nvs = s.nvs := rfl
@[simp] theorem elapse_flg : (s.elapse dt).flg = s.flg := rfl
@[simp] theorem elapse_requests : (s.elapse dt).requests = s.requests := rfl
@[simp] theorem elapse_svl : (s.elapse dt).svl = s.svl := rfl
@[simp] theorem elapse_arrivals : (s.elapse dt).arrivals = s.arrivals := rfl
@[simp] theorem elapse_demands : (s.elapse dt).demands = s.demands := rfl
@[simp] theorem elapse_pending : (s.elapse dt).pending = s.pending := rfl
@[simp] theorem elapse_present (i : StringIdx) : (s.elapse dt).present i = s.present i := rfl
@[simp] theorem elapse_path (i : StringIdx) : (s.elapse dt).path i = s.path i := rfl
@[simp] theorem elapse_adjOf (i : StringIdx) : (s.elapse dt).adjOf i = s.adjOf i := rfl
@[simp] theorem elapse_hold (i : StringIdx) : (s.elapse dt).hold i = s.hold i := rfl

end

section
variable (x : Option Settings) (s : State)

@[simp] theorem withSettings_timeUs : (s.withSettings x).timeUs = s.timeUs := rfl
@[simp] theorem withSettings_settings : (s.withSettings x).settings = x := rfl
@[simp] theorem withSettings_sfe : (s.withSettings x).sfe = s.sfe := rfl
@[simp] theorem withSettings_wac : (s.withSettings x).wac = s.wac := rfl
@[simp] theorem withSettings_abu : (s.withSettings x).abu = s.abu := rfl
@[simp] theorem withSettings_ptb : (s.withSettings x).ptb = s.ptb := rfl
@[simp] theorem withSettings_rfu : (s.withSettings x).rfu = s.rfu := rfl
@[simp] theorem withSettings_adj : (s.withSettings x).adj = s.adj := rfl
@[simp] theorem withSettings_acu : (s.withSettings x).acu = s.acu := rfl
@[simp] theorem withSettings_paths : (s.withSettings x).paths = s.paths := rfl
@[simp] theorem withSettings_boxTrip : (s.withSettings x).boxTrip = s.boxTrip := rfl
@[simp] theorem withSettings_hld : (s.withSettings x).hld = s.hld := rfl
@[simp] theorem withSettings_nvs : (s.withSettings x).nvs = s.nvs := rfl
@[simp] theorem withSettings_flg : (s.withSettings x).flg = s.flg := rfl
@[simp] theorem withSettings_requests : (s.withSettings x).requests = s.requests := rfl
@[simp] theorem withSettings_svl : (s.withSettings x).svl = s.svl := rfl
@[simp] theorem withSettings_arrivals : (s.withSettings x).arrivals = s.arrivals := rfl
@[simp] theorem withSettings_demands : (s.withSettings x).demands = s.demands := rfl
@[simp] theorem withSettings_pending : (s.withSettings x).pending = s.pending := rfl
@[simp] theorem withSettings_nowMs : (s.withSettings x).nowMs = s.nowMs := rfl
@[simp] theorem withSettings_seconds : (s.withSettings x).seconds = s.seconds := rfl
@[simp] theorem withSettings_path (i : StringIdx) : (s.withSettings x).path i = s.path i := rfl
@[simp] theorem withSettings_adjOf (i : StringIdx) : (s.withSettings x).adjOf i = s.adjOf i := rfl
@[simp] theorem withSettings_hold (i : StringIdx) : (s.withSettings x).hold i = s.hold i := rfl

end

section
variable (x : Sfe) (s : State)

@[simp] theorem withSfe_timeUs : (s.withSfe x).timeUs = s.timeUs := rfl
@[simp] theorem withSfe_settings : (s.withSfe x).settings = s.settings := rfl
@[simp] theorem withSfe_sfe : (s.withSfe x).sfe = x := rfl
@[simp] theorem withSfe_wac : (s.withSfe x).wac = s.wac := rfl
@[simp] theorem withSfe_abu : (s.withSfe x).abu = s.abu := rfl
@[simp] theorem withSfe_ptb : (s.withSfe x).ptb = s.ptb := rfl
@[simp] theorem withSfe_rfu : (s.withSfe x).rfu = s.rfu := rfl
@[simp] theorem withSfe_adj : (s.withSfe x).adj = s.adj := rfl
@[simp] theorem withSfe_acu : (s.withSfe x).acu = s.acu := rfl
@[simp] theorem withSfe_paths : (s.withSfe x).paths = s.paths := rfl
@[simp] theorem withSfe_boxTrip : (s.withSfe x).boxTrip = s.boxTrip := rfl
@[simp] theorem withSfe_hld : (s.withSfe x).hld = s.hld := rfl
@[simp] theorem withSfe_nvs : (s.withSfe x).nvs = s.nvs := rfl
@[simp] theorem withSfe_flg : (s.withSfe x).flg = s.flg := rfl
@[simp] theorem withSfe_requests : (s.withSfe x).requests = s.requests := rfl
@[simp] theorem withSfe_svl : (s.withSfe x).svl = s.svl := rfl
@[simp] theorem withSfe_arrivals : (s.withSfe x).arrivals = s.arrivals := rfl
@[simp] theorem withSfe_demands : (s.withSfe x).demands = s.demands := rfl
@[simp] theorem withSfe_pending : (s.withSfe x).pending = s.pending := rfl
@[simp] theorem withSfe_nowMs : (s.withSfe x).nowMs = s.nowMs := rfl
@[simp] theorem withSfe_seconds : (s.withSfe x).seconds = s.seconds := rfl
@[simp] theorem withSfe_present (i : StringIdx) : (s.withSfe x).present i = s.present i := rfl
@[simp] theorem withSfe_path (i : StringIdx) : (s.withSfe x).path i = s.path i := rfl
@[simp] theorem withSfe_adjOf (i : StringIdx) : (s.withSfe x).adjOf i = s.adjOf i := rfl
@[simp] theorem withSfe_hold (i : StringIdx) : (s.withSfe x).hold i = s.hold i := rfl

end

section
variable (x : Wac) (s : State)

@[simp] theorem withWac_timeUs : (s.withWac x).timeUs = s.timeUs := rfl
@[simp] theorem withWac_settings : (s.withWac x).settings = s.settings := rfl
@[simp] theorem withWac_sfe : (s.withWac x).sfe = s.sfe := rfl
@[simp] theorem withWac_wac : (s.withWac x).wac = x := rfl
@[simp] theorem withWac_abu : (s.withWac x).abu = s.abu := rfl
@[simp] theorem withWac_ptb : (s.withWac x).ptb = s.ptb := rfl
@[simp] theorem withWac_rfu : (s.withWac x).rfu = s.rfu := rfl
@[simp] theorem withWac_adj : (s.withWac x).adj = s.adj := rfl
@[simp] theorem withWac_acu : (s.withWac x).acu = s.acu := rfl
@[simp] theorem withWac_paths : (s.withWac x).paths = s.paths := rfl
@[simp] theorem withWac_boxTrip : (s.withWac x).boxTrip = s.boxTrip := rfl
@[simp] theorem withWac_hld : (s.withWac x).hld = s.hld := rfl
@[simp] theorem withWac_nvs : (s.withWac x).nvs = s.nvs := rfl
@[simp] theorem withWac_flg : (s.withWac x).flg = s.flg := rfl
@[simp] theorem withWac_requests : (s.withWac x).requests = s.requests := rfl
@[simp] theorem withWac_svl : (s.withWac x).svl = s.svl := rfl
@[simp] theorem withWac_arrivals : (s.withWac x).arrivals = s.arrivals := rfl
@[simp] theorem withWac_demands : (s.withWac x).demands = s.demands := rfl
@[simp] theorem withWac_pending : (s.withWac x).pending = s.pending := rfl
@[simp] theorem withWac_nowMs : (s.withWac x).nowMs = s.nowMs := rfl
@[simp] theorem withWac_seconds : (s.withWac x).seconds = s.seconds := rfl
@[simp] theorem withWac_present (i : StringIdx) : (s.withWac x).present i = s.present i := rfl
@[simp] theorem withWac_path (i : StringIdx) : (s.withWac x).path i = s.path i := rfl
@[simp] theorem withWac_adjOf (i : StringIdx) : (s.withWac x).adjOf i = s.adjOf i := rfl
@[simp] theorem withWac_hold (i : StringIdx) : (s.withWac x).hold i = s.hold i := rfl

end

section
variable (x : Abu) (s : State)

@[simp] theorem withAbu_timeUs : (s.withAbu x).timeUs = s.timeUs := rfl
@[simp] theorem withAbu_settings : (s.withAbu x).settings = s.settings := rfl
@[simp] theorem withAbu_sfe : (s.withAbu x).sfe = s.sfe := rfl
@[simp] theorem withAbu_wac : (s.withAbu x).wac = s.wac := rfl
@[simp] theorem withAbu_abu : (s.withAbu x).abu = x := rfl
@[simp] theorem withAbu_ptb : (s.withAbu x).ptb = s.ptb := rfl
@[simp] theorem withAbu_rfu : (s.withAbu x).rfu = s.rfu := rfl
@[simp] theorem withAbu_adj : (s.withAbu x).adj = s.adj := rfl
@[simp] theorem withAbu_acu : (s.withAbu x).acu = s.acu := rfl
@[simp] theorem withAbu_paths : (s.withAbu x).paths = s.paths := rfl
@[simp] theorem withAbu_boxTrip : (s.withAbu x).boxTrip = s.boxTrip := rfl
@[simp] theorem withAbu_hld : (s.withAbu x).hld = s.hld := rfl
@[simp] theorem withAbu_nvs : (s.withAbu x).nvs = s.nvs := rfl
@[simp] theorem withAbu_flg : (s.withAbu x).flg = s.flg := rfl
@[simp] theorem withAbu_requests : (s.withAbu x).requests = s.requests := rfl
@[simp] theorem withAbu_svl : (s.withAbu x).svl = s.svl := rfl
@[simp] theorem withAbu_arrivals : (s.withAbu x).arrivals = s.arrivals := rfl
@[simp] theorem withAbu_demands : (s.withAbu x).demands = s.demands := rfl
@[simp] theorem withAbu_pending : (s.withAbu x).pending = s.pending := rfl
@[simp] theorem withAbu_nowMs : (s.withAbu x).nowMs = s.nowMs := rfl
@[simp] theorem withAbu_seconds : (s.withAbu x).seconds = s.seconds := rfl
@[simp] theorem withAbu_present (i : StringIdx) : (s.withAbu x).present i = s.present i := rfl
@[simp] theorem withAbu_path (i : StringIdx) : (s.withAbu x).path i = s.path i := rfl
@[simp] theorem withAbu_adjOf (i : StringIdx) : (s.withAbu x).adjOf i = s.adjOf i := rfl
@[simp] theorem withAbu_hold (i : StringIdx) : (s.withAbu x).hold i = s.hold i := rfl

end

section
variable (x : Ptb) (s : State)

@[simp] theorem withPtb_timeUs : (s.withPtb x).timeUs = s.timeUs := rfl
@[simp] theorem withPtb_settings : (s.withPtb x).settings = s.settings := rfl
@[simp] theorem withPtb_sfe : (s.withPtb x).sfe = s.sfe := rfl
@[simp] theorem withPtb_wac : (s.withPtb x).wac = s.wac := rfl
@[simp] theorem withPtb_abu : (s.withPtb x).abu = s.abu := rfl
@[simp] theorem withPtb_ptb : (s.withPtb x).ptb = x := rfl
@[simp] theorem withPtb_rfu : (s.withPtb x).rfu = s.rfu := rfl
@[simp] theorem withPtb_adj : (s.withPtb x).adj = s.adj := rfl
@[simp] theorem withPtb_acu : (s.withPtb x).acu = s.acu := rfl
@[simp] theorem withPtb_paths : (s.withPtb x).paths = s.paths := rfl
@[simp] theorem withPtb_boxTrip : (s.withPtb x).boxTrip = s.boxTrip := rfl
@[simp] theorem withPtb_hld : (s.withPtb x).hld = s.hld := rfl
@[simp] theorem withPtb_nvs : (s.withPtb x).nvs = s.nvs := rfl
@[simp] theorem withPtb_flg : (s.withPtb x).flg = s.flg := rfl
@[simp] theorem withPtb_requests : (s.withPtb x).requests = s.requests := rfl
@[simp] theorem withPtb_svl : (s.withPtb x).svl = s.svl := rfl
@[simp] theorem withPtb_arrivals : (s.withPtb x).arrivals = s.arrivals := rfl
@[simp] theorem withPtb_demands : (s.withPtb x).demands = s.demands := rfl
@[simp] theorem withPtb_pending : (s.withPtb x).pending = s.pending := rfl
@[simp] theorem withPtb_nowMs : (s.withPtb x).nowMs = s.nowMs := rfl
@[simp] theorem withPtb_seconds : (s.withPtb x).seconds = s.seconds := rfl
@[simp] theorem withPtb_present (i : StringIdx) : (s.withPtb x).present i = s.present i := rfl
@[simp] theorem withPtb_path (i : StringIdx) : (s.withPtb x).path i = s.path i := rfl
@[simp] theorem withPtb_adjOf (i : StringIdx) : (s.withPtb x).adjOf i = s.adjOf i := rfl
@[simp] theorem withPtb_hold (i : StringIdx) : (s.withPtb x).hold i = s.hold i := rfl

end

section
variable (x : Rfu) (s : State)

@[simp] theorem withRfu_timeUs : (s.withRfu x).timeUs = s.timeUs := rfl
@[simp] theorem withRfu_settings : (s.withRfu x).settings = s.settings := rfl
@[simp] theorem withRfu_sfe : (s.withRfu x).sfe = s.sfe := rfl
@[simp] theorem withRfu_wac : (s.withRfu x).wac = s.wac := rfl
@[simp] theorem withRfu_abu : (s.withRfu x).abu = s.abu := rfl
@[simp] theorem withRfu_ptb : (s.withRfu x).ptb = s.ptb := rfl
@[simp] theorem withRfu_rfu : (s.withRfu x).rfu = x := rfl
@[simp] theorem withRfu_adj : (s.withRfu x).adj = s.adj := rfl
@[simp] theorem withRfu_acu : (s.withRfu x).acu = s.acu := rfl
@[simp] theorem withRfu_paths : (s.withRfu x).paths = s.paths := rfl
@[simp] theorem withRfu_boxTrip : (s.withRfu x).boxTrip = s.boxTrip := rfl
@[simp] theorem withRfu_hld : (s.withRfu x).hld = s.hld := rfl
@[simp] theorem withRfu_nvs : (s.withRfu x).nvs = s.nvs := rfl
@[simp] theorem withRfu_flg : (s.withRfu x).flg = s.flg := rfl
@[simp] theorem withRfu_requests : (s.withRfu x).requests = s.requests := rfl
@[simp] theorem withRfu_svl : (s.withRfu x).svl = s.svl := rfl
@[simp] theorem withRfu_arrivals : (s.withRfu x).arrivals = s.arrivals := rfl
@[simp] theorem withRfu_demands : (s.withRfu x).demands = s.demands := rfl
@[simp] theorem withRfu_pending : (s.withRfu x).pending = s.pending := rfl
@[simp] theorem withRfu_nowMs : (s.withRfu x).nowMs = s.nowMs := rfl
@[simp] theorem withRfu_seconds : (s.withRfu x).seconds = s.seconds := rfl
@[simp] theorem withRfu_present (i : StringIdx) : (s.withRfu x).present i = s.present i := rfl
@[simp] theorem withRfu_path (i : StringIdx) : (s.withRfu x).path i = s.path i := rfl
@[simp] theorem withRfu_adjOf (i : StringIdx) : (s.withRfu x).adjOf i = s.adjOf i := rfl
@[simp] theorem withRfu_hold (i : StringIdx) : (s.withRfu x).hold i = s.hold i := rfl

end

section
variable (x : Acu) (s : State)

@[simp] theorem withAcu_timeUs : (s.withAcu x).timeUs = s.timeUs := rfl
@[simp] theorem withAcu_settings : (s.withAcu x).settings = s.settings := rfl
@[simp] theorem withAcu_sfe : (s.withAcu x).sfe = s.sfe := rfl
@[simp] theorem withAcu_wac : (s.withAcu x).wac = s.wac := rfl
@[simp] theorem withAcu_abu : (s.withAcu x).abu = s.abu := rfl
@[simp] theorem withAcu_ptb : (s.withAcu x).ptb = s.ptb := rfl
@[simp] theorem withAcu_rfu : (s.withAcu x).rfu = s.rfu := rfl
@[simp] theorem withAcu_adj : (s.withAcu x).adj = s.adj := rfl
@[simp] theorem withAcu_acu : (s.withAcu x).acu = x := rfl
@[simp] theorem withAcu_paths : (s.withAcu x).paths = s.paths := rfl
@[simp] theorem withAcu_boxTrip : (s.withAcu x).boxTrip = s.boxTrip := rfl
@[simp] theorem withAcu_hld : (s.withAcu x).hld = s.hld := rfl
@[simp] theorem withAcu_nvs : (s.withAcu x).nvs = s.nvs := rfl
@[simp] theorem withAcu_flg : (s.withAcu x).flg = s.flg := rfl
@[simp] theorem withAcu_requests : (s.withAcu x).requests = s.requests := rfl
@[simp] theorem withAcu_svl : (s.withAcu x).svl = s.svl := rfl
@[simp] theorem withAcu_arrivals : (s.withAcu x).arrivals = s.arrivals := rfl
@[simp] theorem withAcu_demands : (s.withAcu x).demands = s.demands := rfl
@[simp] theorem withAcu_pending : (s.withAcu x).pending = s.pending := rfl
@[simp] theorem withAcu_nowMs : (s.withAcu x).nowMs = s.nowMs := rfl
@[simp] theorem withAcu_seconds : (s.withAcu x).seconds = s.seconds := rfl
@[simp] theorem withAcu_present (i : StringIdx) : (s.withAcu x).present i = s.present i := rfl
@[simp] theorem withAcu_path (i : StringIdx) : (s.withAcu x).path i = s.path i := rfl
@[simp] theorem withAcu_adjOf (i : StringIdx) : (s.withAcu x).adjOf i = s.adjOf i := rfl
@[simp] theorem withAcu_hold (i : StringIdx) : (s.withAcu x).hold i = s.hold i := rfl

end

section
variable (x : Bool) (s : State)

@[simp] theorem withBoxTrip_timeUs : (s.withBoxTrip x).timeUs = s.timeUs := rfl
@[simp] theorem withBoxTrip_settings : (s.withBoxTrip x).settings = s.settings := rfl
@[simp] theorem withBoxTrip_sfe : (s.withBoxTrip x).sfe = s.sfe := rfl
@[simp] theorem withBoxTrip_wac : (s.withBoxTrip x).wac = s.wac := rfl
@[simp] theorem withBoxTrip_abu : (s.withBoxTrip x).abu = s.abu := rfl
@[simp] theorem withBoxTrip_ptb : (s.withBoxTrip x).ptb = s.ptb := rfl
@[simp] theorem withBoxTrip_rfu : (s.withBoxTrip x).rfu = s.rfu := rfl
@[simp] theorem withBoxTrip_adj : (s.withBoxTrip x).adj = s.adj := rfl
@[simp] theorem withBoxTrip_acu : (s.withBoxTrip x).acu = s.acu := rfl
@[simp] theorem withBoxTrip_paths : (s.withBoxTrip x).paths = s.paths := rfl
@[simp] theorem withBoxTrip_boxTrip : (s.withBoxTrip x).boxTrip = x := rfl
@[simp] theorem withBoxTrip_hld : (s.withBoxTrip x).hld = s.hld := rfl
@[simp] theorem withBoxTrip_nvs : (s.withBoxTrip x).nvs = s.nvs := rfl
@[simp] theorem withBoxTrip_flg : (s.withBoxTrip x).flg = s.flg := rfl
@[simp] theorem withBoxTrip_requests : (s.withBoxTrip x).requests = s.requests := rfl
@[simp] theorem withBoxTrip_svl : (s.withBoxTrip x).svl = s.svl := rfl
@[simp] theorem withBoxTrip_arrivals : (s.withBoxTrip x).arrivals = s.arrivals := rfl
@[simp] theorem withBoxTrip_demands : (s.withBoxTrip x).demands = s.demands := rfl
@[simp] theorem withBoxTrip_pending : (s.withBoxTrip x).pending = s.pending := rfl
@[simp] theorem withBoxTrip_nowMs : (s.withBoxTrip x).nowMs = s.nowMs := rfl
@[simp] theorem withBoxTrip_seconds : (s.withBoxTrip x).seconds = s.seconds := rfl
@[simp] theorem withBoxTrip_present (i : StringIdx) : (s.withBoxTrip x).present i = s.present i := rfl
@[simp] theorem withBoxTrip_path (i : StringIdx) : (s.withBoxTrip x).path i = s.path i := rfl
@[simp] theorem withBoxTrip_adjOf (i : StringIdx) : (s.withBoxTrip x).adjOf i = s.adjOf i := rfl
@[simp] theorem withBoxTrip_hold (i : StringIdx) : (s.withBoxTrip x).hold i = s.hold i := rfl

end

section
variable (x : Hld) (s : State)

@[simp] theorem withHld_timeUs : (s.withHld x).timeUs = s.timeUs := rfl
@[simp] theorem withHld_settings : (s.withHld x).settings = s.settings := rfl
@[simp] theorem withHld_sfe : (s.withHld x).sfe = s.sfe := rfl
@[simp] theorem withHld_wac : (s.withHld x).wac = s.wac := rfl
@[simp] theorem withHld_abu : (s.withHld x).abu = s.abu := rfl
@[simp] theorem withHld_ptb : (s.withHld x).ptb = s.ptb := rfl
@[simp] theorem withHld_rfu : (s.withHld x).rfu = s.rfu := rfl
@[simp] theorem withHld_adj : (s.withHld x).adj = s.adj := rfl
@[simp] theorem withHld_acu : (s.withHld x).acu = s.acu := rfl
@[simp] theorem withHld_paths : (s.withHld x).paths = s.paths := rfl
@[simp] theorem withHld_boxTrip : (s.withHld x).boxTrip = s.boxTrip := rfl
@[simp] theorem withHld_hld : (s.withHld x).hld = x := rfl
@[simp] theorem withHld_nvs : (s.withHld x).nvs = s.nvs := rfl
@[simp] theorem withHld_flg : (s.withHld x).flg = s.flg := rfl
@[simp] theorem withHld_requests : (s.withHld x).requests = s.requests := rfl
@[simp] theorem withHld_svl : (s.withHld x).svl = s.svl := rfl
@[simp] theorem withHld_arrivals : (s.withHld x).arrivals = s.arrivals := rfl
@[simp] theorem withHld_demands : (s.withHld x).demands = s.demands := rfl
@[simp] theorem withHld_pending : (s.withHld x).pending = s.pending := rfl
@[simp] theorem withHld_nowMs : (s.withHld x).nowMs = s.nowMs := rfl
@[simp] theorem withHld_seconds : (s.withHld x).seconds = s.seconds := rfl
@[simp] theorem withHld_present (i : StringIdx) : (s.withHld x).present i = s.present i := rfl
@[simp] theorem withHld_path (i : StringIdx) : (s.withHld x).path i = s.path i := rfl
@[simp] theorem withHld_adjOf (i : StringIdx) : (s.withHld x).adjOf i = s.adjOf i := rfl

end

section
variable (x : Nvs) (s : State)

@[simp] theorem withNvs_timeUs : (s.withNvs x).timeUs = s.timeUs := rfl
@[simp] theorem withNvs_settings : (s.withNvs x).settings = s.settings := rfl
@[simp] theorem withNvs_sfe : (s.withNvs x).sfe = s.sfe := rfl
@[simp] theorem withNvs_wac : (s.withNvs x).wac = s.wac := rfl
@[simp] theorem withNvs_abu : (s.withNvs x).abu = s.abu := rfl
@[simp] theorem withNvs_ptb : (s.withNvs x).ptb = s.ptb := rfl
@[simp] theorem withNvs_rfu : (s.withNvs x).rfu = s.rfu := rfl
@[simp] theorem withNvs_adj : (s.withNvs x).adj = s.adj := rfl
@[simp] theorem withNvs_acu : (s.withNvs x).acu = s.acu := rfl
@[simp] theorem withNvs_paths : (s.withNvs x).paths = s.paths := rfl
@[simp] theorem withNvs_boxTrip : (s.withNvs x).boxTrip = s.boxTrip := rfl
@[simp] theorem withNvs_hld : (s.withNvs x).hld = s.hld := rfl
@[simp] theorem withNvs_nvs : (s.withNvs x).nvs = x := rfl
@[simp] theorem withNvs_flg : (s.withNvs x).flg = s.flg := rfl
@[simp] theorem withNvs_requests : (s.withNvs x).requests = s.requests := rfl
@[simp] theorem withNvs_svl : (s.withNvs x).svl = s.svl := rfl
@[simp] theorem withNvs_arrivals : (s.withNvs x).arrivals = s.arrivals := rfl
@[simp] theorem withNvs_demands : (s.withNvs x).demands = s.demands := rfl
@[simp] theorem withNvs_pending : (s.withNvs x).pending = s.pending := rfl
@[simp] theorem withNvs_nowMs : (s.withNvs x).nowMs = s.nowMs := rfl
@[simp] theorem withNvs_seconds : (s.withNvs x).seconds = s.seconds := rfl
@[simp] theorem withNvs_present (i : StringIdx) : (s.withNvs x).present i = s.present i := rfl
@[simp] theorem withNvs_path (i : StringIdx) : (s.withNvs x).path i = s.path i := rfl
@[simp] theorem withNvs_adjOf (i : StringIdx) : (s.withNvs x).adjOf i = s.adjOf i := rfl
@[simp] theorem withNvs_hold (i : StringIdx) : (s.withNvs x).hold i = s.hold i := rfl

end

section
variable (x : Flg) (s : State)

@[simp] theorem withFlg_timeUs : (s.withFlg x).timeUs = s.timeUs := rfl
@[simp] theorem withFlg_settings : (s.withFlg x).settings = s.settings := rfl
@[simp] theorem withFlg_sfe : (s.withFlg x).sfe = s.sfe := rfl
@[simp] theorem withFlg_wac : (s.withFlg x).wac = s.wac := rfl
@[simp] theorem withFlg_abu : (s.withFlg x).abu = s.abu := rfl
@[simp] theorem withFlg_ptb : (s.withFlg x).ptb = s.ptb := rfl
@[simp] theorem withFlg_rfu : (s.withFlg x).rfu = s.rfu := rfl
@[simp] theorem withFlg_adj : (s.withFlg x).adj = s.adj := rfl
@[simp] theorem withFlg_acu : (s.withFlg x).acu = s.acu := rfl
@[simp] theorem withFlg_paths : (s.withFlg x).paths = s.paths := rfl
@[simp] theorem withFlg_boxTrip : (s.withFlg x).boxTrip = s.boxTrip := rfl
@[simp] theorem withFlg_hld : (s.withFlg x).hld = s.hld := rfl
@[simp] theorem withFlg_nvs : (s.withFlg x).nvs = s.nvs := rfl
@[simp] theorem withFlg_flg : (s.withFlg x).flg = x := rfl
@[simp] theorem withFlg_requests : (s.withFlg x).requests = s.requests := rfl
@[simp] theorem withFlg_svl : (s.withFlg x).svl = s.svl := rfl
@[simp] theorem withFlg_arrivals : (s.withFlg x).arrivals = s.arrivals := rfl
@[simp] theorem withFlg_demands : (s.withFlg x).demands = s.demands := rfl
@[simp] theorem withFlg_pending : (s.withFlg x).pending = s.pending := rfl
@[simp] theorem withFlg_nowMs : (s.withFlg x).nowMs = s.nowMs := rfl
@[simp] theorem withFlg_seconds : (s.withFlg x).seconds = s.seconds := rfl
@[simp] theorem withFlg_present (i : StringIdx) : (s.withFlg x).present i = s.present i := rfl
@[simp] theorem withFlg_path (i : StringIdx) : (s.withFlg x).path i = s.path i := rfl
@[simp] theorem withFlg_adjOf (i : StringIdx) : (s.withFlg x).adjOf i = s.adjOf i := rfl
@[simp] theorem withFlg_hold (i : StringIdx) : (s.withFlg x).hold i = s.hold i := rfl

end

section
variable (x : List Request) (s : State)

@[simp] theorem withRequests_timeUs : (s.withRequests x).timeUs = s.timeUs := rfl
@[simp] theorem withRequests_settings : (s.withRequests x).settings = s.settings := rfl
@[simp] theorem withRequests_sfe : (s.withRequests x).sfe = s.sfe := rfl
@[simp] theorem withRequests_wac : (s.withRequests x).wac = s.wac := rfl
@[simp] theorem withRequests_abu : (s.withRequests x).abu = s.abu := rfl
@[simp] theorem withRequests_ptb : (s.withRequests x).ptb = s.ptb := rfl
@[simp] theorem withRequests_rfu : (s.withRequests x).rfu = s.rfu := rfl
@[simp] theorem withRequests_adj : (s.withRequests x).adj = s.adj := rfl
@[simp] theorem withRequests_acu : (s.withRequests x).acu = s.acu := rfl
@[simp] theorem withRequests_paths : (s.withRequests x).paths = s.paths := rfl
@[simp] theorem withRequests_boxTrip : (s.withRequests x).boxTrip = s.boxTrip := rfl
@[simp] theorem withRequests_hld : (s.withRequests x).hld = s.hld := rfl
@[simp] theorem withRequests_nvs : (s.withRequests x).nvs = s.nvs := rfl
@[simp] theorem withRequests_flg : (s.withRequests x).flg = s.flg := rfl
@[simp] theorem withRequests_requests : (s.withRequests x).requests = x := rfl
@[simp] theorem withRequests_svl : (s.withRequests x).svl = s.svl := rfl
@[simp] theorem withRequests_arrivals : (s.withRequests x).arrivals = s.arrivals := rfl
@[simp] theorem withRequests_demands : (s.withRequests x).demands = s.demands := rfl
@[simp] theorem withRequests_pending : (s.withRequests x).pending = s.pending := rfl
@[simp] theorem withRequests_nowMs : (s.withRequests x).nowMs = s.nowMs := rfl
@[simp] theorem withRequests_seconds : (s.withRequests x).seconds = s.seconds := rfl
@[simp] theorem withRequests_present (i : StringIdx) : (s.withRequests x).present i = s.present i := rfl
@[simp] theorem withRequests_path (i : StringIdx) : (s.withRequests x).path i = s.path i := rfl
@[simp] theorem withRequests_adjOf (i : StringIdx) : (s.withRequests x).adjOf i = s.adjOf i := rfl
@[simp] theorem withRequests_hold (i : StringIdx) : (s.withRequests x).hold i = s.hold i := rfl

end

section
variable (x : Svl) (s : State)

@[simp] theorem withSvl_timeUs : (s.withSvl x).timeUs = s.timeUs := rfl
@[simp] theorem withSvl_settings : (s.withSvl x).settings = s.settings := rfl
@[simp] theorem withSvl_sfe : (s.withSvl x).sfe = s.sfe := rfl
@[simp] theorem withSvl_wac : (s.withSvl x).wac = s.wac := rfl
@[simp] theorem withSvl_abu : (s.withSvl x).abu = s.abu := rfl
@[simp] theorem withSvl_ptb : (s.withSvl x).ptb = s.ptb := rfl
@[simp] theorem withSvl_rfu : (s.withSvl x).rfu = s.rfu := rfl
@[simp] theorem withSvl_adj : (s.withSvl x).adj = s.adj := rfl
@[simp] theorem withSvl_acu : (s.withSvl x).acu = s.acu := rfl
@[simp] theorem withSvl_paths : (s.withSvl x).paths = s.paths := rfl
@[simp] theorem withSvl_boxTrip : (s.withSvl x).boxTrip = s.boxTrip := rfl
@[simp] theorem withSvl_hld : (s.withSvl x).hld = s.hld := rfl
@[simp] theorem withSvl_nvs : (s.withSvl x).nvs = s.nvs := rfl
@[simp] theorem withSvl_flg : (s.withSvl x).flg = s.flg := rfl
@[simp] theorem withSvl_requests : (s.withSvl x).requests = s.requests := rfl
@[simp] theorem withSvl_svl : (s.withSvl x).svl = x := rfl
@[simp] theorem withSvl_arrivals : (s.withSvl x).arrivals = s.arrivals := rfl
@[simp] theorem withSvl_demands : (s.withSvl x).demands = s.demands := rfl
@[simp] theorem withSvl_pending : (s.withSvl x).pending = s.pending := rfl
@[simp] theorem withSvl_nowMs : (s.withSvl x).nowMs = s.nowMs := rfl
@[simp] theorem withSvl_seconds : (s.withSvl x).seconds = s.seconds := rfl
@[simp] theorem withSvl_present (i : StringIdx) : (s.withSvl x).present i = s.present i := rfl
@[simp] theorem withSvl_path (i : StringIdx) : (s.withSvl x).path i = s.path i := rfl
@[simp] theorem withSvl_adjOf (i : StringIdx) : (s.withSvl x).adjOf i = s.adjOf i := rfl
@[simp] theorem withSvl_hold (i : StringIdx) : (s.withSvl x).hold i = s.hold i := rfl

end

section
variable (x : List Arrival) (s : State)

@[simp] theorem withArrivals_timeUs : (s.withArrivals x).timeUs = s.timeUs := rfl
@[simp] theorem withArrivals_settings : (s.withArrivals x).settings = s.settings := rfl
@[simp] theorem withArrivals_sfe : (s.withArrivals x).sfe = s.sfe := rfl
@[simp] theorem withArrivals_wac : (s.withArrivals x).wac = s.wac := rfl
@[simp] theorem withArrivals_abu : (s.withArrivals x).abu = s.abu := rfl
@[simp] theorem withArrivals_ptb : (s.withArrivals x).ptb = s.ptb := rfl
@[simp] theorem withArrivals_rfu : (s.withArrivals x).rfu = s.rfu := rfl
@[simp] theorem withArrivals_adj : (s.withArrivals x).adj = s.adj := rfl
@[simp] theorem withArrivals_acu : (s.withArrivals x).acu = s.acu := rfl
@[simp] theorem withArrivals_paths : (s.withArrivals x).paths = s.paths := rfl
@[simp] theorem withArrivals_boxTrip : (s.withArrivals x).boxTrip = s.boxTrip := rfl
@[simp] theorem withArrivals_hld : (s.withArrivals x).hld = s.hld := rfl
@[simp] theorem withArrivals_nvs : (s.withArrivals x).nvs = s.nvs := rfl
@[simp] theorem withArrivals_flg : (s.withArrivals x).flg = s.flg := rfl
@[simp] theorem withArrivals_requests : (s.withArrivals x).requests = s.requests := rfl
@[simp] theorem withArrivals_svl : (s.withArrivals x).svl = s.svl := rfl
@[simp] theorem withArrivals_arrivals : (s.withArrivals x).arrivals = x := rfl
@[simp] theorem withArrivals_demands : (s.withArrivals x).demands = s.demands := rfl
@[simp] theorem withArrivals_pending : (s.withArrivals x).pending = s.pending := rfl
@[simp] theorem withArrivals_nowMs : (s.withArrivals x).nowMs = s.nowMs := rfl
@[simp] theorem withArrivals_seconds : (s.withArrivals x).seconds = s.seconds := rfl
@[simp] theorem withArrivals_present (i : StringIdx) : (s.withArrivals x).present i = s.present i := rfl
@[simp] theorem withArrivals_path (i : StringIdx) : (s.withArrivals x).path i = s.path i := rfl
@[simp] theorem withArrivals_adjOf (i : StringIdx) : (s.withArrivals x).adjOf i = s.adjOf i := rfl
@[simp] theorem withArrivals_hold (i : StringIdx) : (s.withArrivals x).hold i = s.hold i := rfl

end

section
variable (x : List Demand) (s : State)

@[simp] theorem withDemands_timeUs : (s.withDemands x).timeUs = s.timeUs := rfl
@[simp] theorem withDemands_settings : (s.withDemands x).settings = s.settings := rfl
@[simp] theorem withDemands_sfe : (s.withDemands x).sfe = s.sfe := rfl
@[simp] theorem withDemands_wac : (s.withDemands x).wac = s.wac := rfl
@[simp] theorem withDemands_abu : (s.withDemands x).abu = s.abu := rfl
@[simp] theorem withDemands_ptb : (s.withDemands x).ptb = s.ptb := rfl
@[simp] theorem withDemands_rfu : (s.withDemands x).rfu = s.rfu := rfl
@[simp] theorem withDemands_adj : (s.withDemands x).adj = s.adj := rfl
@[simp] theorem withDemands_acu : (s.withDemands x).acu = s.acu := rfl
@[simp] theorem withDemands_paths : (s.withDemands x).paths = s.paths := rfl
@[simp] theorem withDemands_boxTrip : (s.withDemands x).boxTrip = s.boxTrip := rfl
@[simp] theorem withDemands_hld : (s.withDemands x).hld = s.hld := rfl
@[simp] theorem withDemands_nvs : (s.withDemands x).nvs = s.nvs := rfl
@[simp] theorem withDemands_flg : (s.withDemands x).flg = s.flg := rfl
@[simp] theorem withDemands_requests : (s.withDemands x).requests = s.requests := rfl
@[simp] theorem withDemands_svl : (s.withDemands x).svl = s.svl := rfl
@[simp] theorem withDemands_arrivals : (s.withDemands x).arrivals = s.arrivals := rfl
@[simp] theorem withDemands_demands : (s.withDemands x).demands = x := rfl
@[simp] theorem withDemands_pending : (s.withDemands x).pending = s.pending := rfl
@[simp] theorem withDemands_nowMs : (s.withDemands x).nowMs = s.nowMs := rfl
@[simp] theorem withDemands_seconds : (s.withDemands x).seconds = s.seconds := rfl
@[simp] theorem withDemands_present (i : StringIdx) : (s.withDemands x).present i = s.present i := rfl
@[simp] theorem withDemands_path (i : StringIdx) : (s.withDemands x).path i = s.path i := rfl
@[simp] theorem withDemands_adjOf (i : StringIdx) : (s.withDemands x).adjOf i = s.adjOf i := rfl
@[simp] theorem withDemands_hold (i : StringIdx) : (s.withDemands x).hold i = s.hold i := rfl

end

section
variable (k : StringIdx) (p : Path) (s : State)

@[simp] theorem setPath_timeUs : (s.setPath k p).timeUs = s.timeUs := rfl
@[simp] theorem setPath_settings : (s.setPath k p).settings = s.settings := rfl
@[simp] theorem setPath_sfe : (s.setPath k p).sfe = s.sfe := rfl
@[simp] theorem setPath_wac : (s.setPath k p).wac = s.wac := rfl
@[simp] theorem setPath_abu : (s.setPath k p).abu = s.abu := rfl
@[simp] theorem setPath_ptb : (s.setPath k p).ptb = s.ptb := rfl
@[simp] theorem setPath_rfu : (s.setPath k p).rfu = s.rfu := rfl
@[simp] theorem setPath_adj : (s.setPath k p).adj = s.adj := rfl
@[simp] theorem setPath_acu : (s.setPath k p).acu = s.acu := rfl
@[simp] theorem setPath_boxTrip : (s.setPath k p).boxTrip = s.boxTrip := rfl
@[simp] theorem setPath_hld : (s.setPath k p).hld = s.hld := rfl
@[simp] theorem setPath_nvs : (s.setPath k p).nvs = s.nvs := rfl
@[simp] theorem setPath_flg : (s.setPath k p).flg = s.flg := rfl
@[simp] theorem setPath_requests : (s.setPath k p).requests = s.requests := rfl
@[simp] theorem setPath_svl : (s.setPath k p).svl = s.svl := rfl
@[simp] theorem setPath_arrivals : (s.setPath k p).arrivals = s.arrivals := rfl
@[simp] theorem setPath_demands : (s.setPath k p).demands = s.demands := rfl
@[simp] theorem setPath_pending : (s.setPath k p).pending = s.pending := rfl
@[simp] theorem setPath_nowMs : (s.setPath k p).nowMs = s.nowMs := rfl
@[simp] theorem setPath_seconds : (s.setPath k p).seconds = s.seconds := rfl
@[simp] theorem setPath_present (i : StringIdx) : (s.setPath k p).present i = s.present i := rfl
@[simp] theorem setPath_adjOf (i : StringIdx) : (s.setPath k p).adjOf i = s.adjOf i := rfl
@[simp] theorem setPath_hold (i : StringIdx) : (s.setPath k p).hold i = s.hold i := rfl

end

section
variable (k : StringIdx) (a : AdjRecord) (s : State)

@[simp] theorem setAdj_timeUs : (s.setAdj k a).timeUs = s.timeUs := rfl
@[simp] theorem setAdj_settings : (s.setAdj k a).settings = s.settings := rfl
@[simp] theorem setAdj_sfe : (s.setAdj k a).sfe = s.sfe := rfl
@[simp] theorem setAdj_wac : (s.setAdj k a).wac = s.wac := rfl
@[simp] theorem setAdj_abu : (s.setAdj k a).abu = s.abu := rfl
@[simp] theorem setAdj_ptb : (s.setAdj k a).ptb = s.ptb := rfl
@[simp] theorem setAdj_rfu : (s.setAdj k a).rfu = s.rfu := rfl
@[simp] theorem setAdj_acu : (s.setAdj k a).acu = s.acu := rfl
@[simp] theorem setAdj_paths : (s.setAdj k a).paths = s.paths := rfl
@[simp] theorem setAdj_boxTrip : (s.setAdj k a).boxTrip = s.boxTrip := rfl
@[simp] theorem setAdj_hld : (s.setAdj k a).hld = s.hld := rfl
@[simp] theorem setAdj_nvs : (s.setAdj k a).nvs = s.nvs := rfl
@[simp] theorem setAdj_flg : (s.setAdj k a).flg = s.flg := rfl
@[simp] theorem setAdj_requests : (s.setAdj k a).requests = s.requests := rfl
@[simp] theorem setAdj_svl : (s.setAdj k a).svl = s.svl := rfl
@[simp] theorem setAdj_arrivals : (s.setAdj k a).arrivals = s.arrivals := rfl
@[simp] theorem setAdj_demands : (s.setAdj k a).demands = s.demands := rfl
@[simp] theorem setAdj_pending : (s.setAdj k a).pending = s.pending := rfl
@[simp] theorem setAdj_nowMs : (s.setAdj k a).nowMs = s.nowMs := rfl
@[simp] theorem setAdj_seconds : (s.setAdj k a).seconds = s.seconds := rfl
@[simp] theorem setAdj_present (i : StringIdx) : (s.setAdj k a).present i = s.present i := rfl
@[simp] theorem setAdj_path (i : StringIdx) : (s.setAdj k a).path i = s.path i := rfl
@[simp] theorem setAdj_hold (i : StringIdx) : (s.setAdj k a).hold i = s.hold i := rfl

end

section
variable (k : StringIdx) (h : Hold) (s : State)

@[simp] theorem setHold_timeUs : (s.setHold k h).timeUs = s.timeUs := rfl
@[simp] theorem setHold_settings : (s.setHold k h).settings = s.settings := rfl
@[simp] theorem setHold_sfe : (s.setHold k h).sfe = s.sfe := rfl
@[simp] theorem setHold_wac : (s.setHold k h).wac = s.wac := rfl
@[simp] theorem setHold_abu : (s.setHold k h).abu = s.abu := rfl
@[simp] theorem setHold_ptb : (s.setHold k h).ptb = s.ptb := rfl
@[simp] theorem setHold_rfu : (s.setHold k h).rfu = s.rfu := rfl
@[simp] theorem setHold_adj : (s.setHold k h).adj = s.adj := rfl
@[simp] theorem setHold_acu : (s.setHold k h).acu = s.acu := rfl
@[simp] theorem setHold_paths : (s.setHold k h).paths = s.paths := rfl
@[simp] theorem setHold_boxTrip : (s.setHold k h).boxTrip = s.boxTrip := rfl
@[simp] theorem setHold_nvs : (s.setHold k h).nvs = s.nvs := rfl
@[simp] theorem setHold_flg : (s.setHold k h).flg = s.flg := rfl
@[simp] theorem setHold_requests : (s.setHold k h).requests = s.requests := rfl
@[simp] theorem setHold_svl : (s.setHold k h).svl = s.svl := rfl
@[simp] theorem setHold_arrivals : (s.setHold k h).arrivals = s.arrivals := rfl
@[simp] theorem setHold_demands : (s.setHold k h).demands = s.demands := rfl
@[simp] theorem setHold_pending : (s.setHold k h).pending = s.pending := rfl
@[simp] theorem setHold_nowMs : (s.setHold k h).nowMs = s.nowMs := rfl
@[simp] theorem setHold_seconds : (s.setHold k h).seconds = s.seconds := rfl
@[simp] theorem setHold_present (i : StringIdx) : (s.setHold k h).present i = s.present i := rfl
@[simp] theorem setHold_path (i : StringIdx) : (s.setHold k h).path i = s.path i := rfl
@[simp] theorem setHold_adjOf (i : StringIdx) : (s.setHold k h).adjOf i = s.adjOf i := rfl
@[simp] theorem setHold_input : (s.setHold k h).hld.input = s.hld.input := rfl
@[simp] theorem setHold_shutdown : (s.setHold k h).hld.shutdown = s.hld.shutdown := rfl
@[simp] theorem setHold_pageLost : (s.setHold k h).hld.pageLost = s.hld.pageLost := rfl

end

/-! ### One string's record after a write -/

theorem get_set {α : Type} (v : PerString α) (k i : StringIdx) (x : α) : (v.set k x)[i] = if i = k then x else v[i] := by
  simp only [Fin.getElem_fin, Vector.getElem_set, Fin.ext_iff, eq_comm (a := k.val)]

theorem path_setPath (s : State) (k i : StringIdx) (p : Path) : (s.setPath k p).path i = if i = k then p else s.path i :=
  get_set s.paths k i p

theorem adjOf_setAdj (s : State) (k i : StringIdx) (a : AdjRecord) : (s.setAdj k a).adjOf i = if i = k then a else s.adjOf i :=
  get_set s.adj k i a

theorem hold_setHold (s : State) (k i : StringIdx) (h : Hold) : (s.setHold k h).hold i = if i = k then h else s.hold i :=
  get_set s.hld.strings k i h

@[simp] theorem path_setPath_self (s : State) (k : StringIdx) (p : Path) : (s.setPath k p).path k = p := by simp [path_setPath]

@[simp] theorem adjOf_setAdj_self (s : State) (k : StringIdx) (a : AdjRecord) : (s.setAdj k a).adjOf k = a := by simp [adjOf_setAdj]

@[simp] theorem hold_setHold_self (s : State) (k : StringIdx) (h : Hold) : (s.setHold k h).hold k = h := by simp [hold_setHold]

theorem path_setPath_ne (s : State) {k i : StringIdx} (p : Path) (ne : i ≠ k) : (s.setPath k p).path i = s.path i := by
  simp [path_setPath, ne]

theorem adjOf_setAdj_ne (s : State) {k i : StringIdx} (a : AdjRecord) (ne : i ≠ k) : (s.setAdj k a).adjOf i = s.adjOf i := by
  simp [adjOf_setAdj, ne]

theorem hold_setHold_ne (s : State) {k i : StringIdx} (h : Hold) (ne : i ≠ k) : (s.setHold k h).hold i = s.hold i := by
  simp [hold_setHold, ne]

/-! ### A write of what a string's record already is changes nothing -/

theorem set_get {α : Type} (v : PerString α) (k : StringIdx) : v.set k v[k] = v := by
  apply Vector.ext
  intro i hi
  simp only [Vector.getElem_set, Fin.getElem_fin]
  split
  · next h => subst h; rfl
  · rfl

@[simp] theorem setPath_same (s : State) (k : StringIdx) : s.setPath k (s.path k) = s := by
  unfold setPath path
  rw [set_get]

@[simp] theorem setAdj_same (s : State) (k : StringIdx) : s.setAdj k (s.adjOf k) = s := by
  unfold setAdj adjOf
  rw [set_get]

@[simp] theorem setHold_same (s : State) (k : StringIdx) : s.setHold k (s.hold k) = s := by
  unfold setHold hold
  rw [set_get]

/-! ### Two writes of the same part -/

@[simp] theorem withAbu_withAbu (s : State) (x y : Abu) : (s.withAbu x).withAbu y = s.withAbu y := rfl
@[simp] theorem withWac_withWac (s : State) (x y : Wac) : (s.withWac x).withWac y = s.withWac y := rfl
@[simp] theorem withAcu_withAcu (s : State) (x y : Acu) : (s.withAcu x).withAcu y = s.withAcu y := rfl
@[simp] theorem withNvs_withNvs (s : State) (x y : Nvs) : (s.withNvs x).withNvs y = s.withNvs y := rfl
@[simp] theorem withSvl_withSvl (s : State) (x y : Svl) : (s.withSvl x).withSvl y = s.withSvl y := rfl
@[simp] theorem withFlg_withFlg (s : State) (x y : Flg) : (s.withFlg x).withFlg y = s.withFlg y := rfl
@[simp] theorem withHld_withHld (s : State) (x y : Hld) : (s.withHld x).withHld y = s.withHld y := rfl
@[simp] theorem withArrivals_withArrivals (s : State) (x y : List Arrival) : (s.withArrivals x).withArrivals y = s.withArrivals y := rfl
@[simp] theorem withDemands_withDemands (s : State) (x y : List Demand) : (s.withDemands x).withDemands y = s.withDemands y := rfl
@[simp] theorem withPtb_withPtb (s : State) (x y : Ptb) : (s.withPtb x).withPtb y = s.withPtb y := rfl

end Sys2Proof.Machine.State
end

