-- ==== Sys2Proof/Laws/Frames.lean ====
section
/-! SUPPORT. The frames of the shared operations: for each operation one lemma that names every part of the state it leaves alone.
What an operation does write is said in the files of this folder that follow the blocks. -/

namespace Sys2Proof.Machine

@[simp] theorem notePathWac_frame (i : StringIdx) (old : PathState) (s : State) :
      (notePathWac i old s).timeUs = s.timeUs ∧ (notePathWac i old s).settings = s.settings ∧ (notePathWac i old s).sfe = s.sfe ∧
      (notePathWac i old s).abu = s.abu ∧ (notePathWac i old s).ptb = s.ptb ∧ (notePathWac i old s).rfu = s.rfu ∧
      (notePathWac i old s).adj = s.adj ∧ (notePathWac i old s).acu = s.acu ∧ (notePathWac i old s).paths = s.paths ∧
      (notePathWac i old s).boxTrip = s.boxTrip ∧ (notePathWac i old s).hld = s.hld ∧ (notePathWac i old s).nvs = s.nvs ∧
      (notePathWac i old s).flg = s.flg ∧ (notePathWac i old s).requests = s.requests ∧ (notePathWac i old s).svl = s.svl ∧
      (notePathWac i old s).arrivals = s.arrivals ∧ (notePathWac i old s).demands = s.demands ∧
      (notePathWac i old s).pending = s.pending ∧ (notePathWac i old s).nowMs = s.nowMs ∧
      (notePathWac i old s).seconds = s.seconds ∧ (∀ j, (notePathWac i old s).present j = s.present j) ∧
      (∀ j, (notePathWac i old s).path j = s.path j) ∧ (∀ j, (notePathWac i old s).adjOf j = s.adjOf j) ∧
      (∀ j, (notePathWac i old s).hold j = s.hold j) := by
  simp [notePathWac]

@[simp] theorem notePathHold_frame (i : StringIdx) (old new : PathState) (s : State) :
      (notePathHold i old new s).timeUs = s.timeUs ∧ (notePathHold i old new s).settings = s.settings ∧
      (notePathHold i old new s).sfe = s.sfe ∧ (notePathHold i old new s).wac = s.wac ∧ (notePathHold i old new s).abu = s.abu ∧
      (notePathHold i old new s).ptb = s.ptb ∧ (notePathHold i old new s).rfu = s.rfu ∧ (notePathHold i old new s).adj = s.adj ∧
      (notePathHold i old new s).acu = s.acu ∧ (notePathHold i old new s).paths = s.paths ∧
      (notePathHold i old new s).boxTrip = s.boxTrip ∧ (notePathHold i old new s).nvs = s.nvs ∧
      (notePathHold i old new s).flg = s.flg ∧ (notePathHold i old new s).requests = s.requests ∧
      (notePathHold i old new s).svl = s.svl ∧ (notePathHold i old new s).arrivals = s.arrivals ∧
      (notePathHold i old new s).demands = s.demands ∧ (notePathHold i old new s).pending = s.pending ∧
      (notePathHold i old new s).nowMs = s.nowMs ∧ (notePathHold i old new s).seconds = s.seconds ∧
      (∀ j, (notePathHold i old new s).present j = s.present j) ∧ (∀ j, (notePathHold i old new s).path j = s.path j) ∧
      (∀ j, (notePathHold i old new s).adjOf j = s.adjOf j) ∧ (notePathHold i old new s).hld.input = s.hld.input ∧
      (notePathHold i old new s).hld.shutdown = s.hld.shutdown ∧ (notePathHold i old new s).hld.pageLost = s.hld.pageLost := by
  unfold notePathHold; split <;> (try split) <;> simp

@[simp] theorem changePath_frame (i : StringIdx) (p : Path) (s : State) :
      (changePath i p s).timeUs = s.timeUs ∧ (changePath i p s).settings = s.settings ∧ (changePath i p s).sfe = s.sfe ∧
      (changePath i p s).abu = s.abu ∧ (changePath i p s).ptb = s.ptb ∧ (changePath i p s).rfu = s.rfu ∧
      (changePath i p s).adj = s.adj ∧ (changePath i p s).acu = s.acu ∧ (changePath i p s).boxTrip = s.boxTrip ∧
      (changePath i p s).nvs = s.nvs ∧ (changePath i p s).flg = s.flg ∧ (changePath i p s).requests = s.requests ∧
      (changePath i p s).svl = s.svl ∧ (changePath i p s).arrivals = s.arrivals ∧ (changePath i p s).demands = s.demands ∧
      (changePath i p s).pending = s.pending ∧ (changePath i p s).nowMs = s.nowMs ∧ (changePath i p s).seconds = s.seconds ∧
      (∀ j, (changePath i p s).present j = s.present j) ∧ (∀ j, (changePath i p s).adjOf j = s.adjOf j) ∧
      (changePath i p s).hld.input = s.hld.input ∧ (changePath i p s).hld.shutdown = s.hld.shutdown ∧
      (changePath i p s).hld.pageLost = s.hld.pageLost := by
  unfold changePath; dsimp only; split <;> simp

@[simp] theorem openDemand_frame (i : StringIdx) (r : Reason) (n : Nat) (s : State) :
      (openDemand i r n s).timeUs = s.timeUs ∧ (openDemand i r n s).settings = s.settings ∧ (openDemand i r n s).sfe = s.sfe ∧
      (openDemand i r n s).abu = s.abu ∧ (openDemand i r n s).ptb = s.ptb ∧ (openDemand i r n s).rfu = s.rfu ∧
      (openDemand i r n s).adj = s.adj ∧ (openDemand i r n s).acu = s.acu ∧ (openDemand i r n s).boxTrip = s.boxTrip ∧
      (openDemand i r n s).nvs = s.nvs ∧ (openDemand i r n s).flg = s.flg ∧ (openDemand i r n s).requests = s.requests ∧
      (openDemand i r n s).svl = s.svl ∧ (openDemand i r n s).arrivals = s.arrivals ∧ (openDemand i r n s).demands = s.demands ∧
      (openDemand i r n s).pending = s.pending ∧ (openDemand i r n s).nowMs = s.nowMs ∧
      (openDemand i r n s).seconds = s.seconds ∧ (∀ j, (openDemand i r n s).present j = s.present j) ∧
      (∀ j, (openDemand i r n s).adjOf j = s.adjOf j) ∧ (openDemand i r n s).hld.input = s.hld.input ∧
      (openDemand i r n s).hld.shutdown = s.hld.shutdown ∧ (openDemand i r n s).hld.pageLost = s.hld.pageLost := by
  simp [openDemand]

@[simp] theorem closePermission_frame (i : StringIdx) (s : State) :
      (closePermission i s).timeUs = s.timeUs ∧ (closePermission i s).settings = s.settings ∧ (closePermission i s).sfe = s.sfe ∧
      (closePermission i s).abu = s.abu ∧ (closePermission i s).ptb = s.ptb ∧ (closePermission i s).rfu = s.rfu ∧
      (closePermission i s).adj = s.adj ∧ (closePermission i s).acu = s.acu ∧ (closePermission i s).boxTrip = s.boxTrip ∧
      (closePermission i s).nvs = s.nvs ∧ (closePermission i s).flg = s.flg ∧ (closePermission i s).requests = s.requests ∧
      (closePermission i s).svl = s.svl ∧ (closePermission i s).arrivals = s.arrivals ∧
      (closePermission i s).demands = s.demands ∧ (closePermission i s).pending = s.pending ∧
      (closePermission i s).nowMs = s.nowMs ∧ (closePermission i s).seconds = s.seconds ∧
      (∀ j, (closePermission i s).present j = s.present j) ∧ (∀ j, (closePermission i s).adjOf j = s.adjOf j) ∧
      (closePermission i s).hld.input = s.hld.input ∧ (closePermission i s).hld.shutdown = s.hld.shutdown ∧
      (closePermission i s).hld.pageLost = s.hld.pageLost := by
  unfold closePermission; split <;> simp

@[simp] theorem zeroBandSample_frame (i : StringIdx) (s : State) :
      (zeroBandSample i s).timeUs = s.timeUs ∧ (zeroBandSample i s).settings = s.settings ∧ (zeroBandSample i s).sfe = s.sfe ∧
      (zeroBandSample i s).abu = s.abu ∧ (zeroBandSample i s).ptb = s.ptb ∧ (zeroBandSample i s).rfu = s.rfu ∧
      (zeroBandSample i s).adj = s.adj ∧ (zeroBandSample i s).acu = s.acu ∧ (zeroBandSample i s).boxTrip = s.boxTrip ∧
      (zeroBandSample i s).nvs = s.nvs ∧ (zeroBandSample i s).flg = s.flg ∧ (zeroBandSample i s).requests = s.requests ∧
      (zeroBandSample i s).svl = s.svl ∧ (zeroBandSample i s).arrivals = s.arrivals ∧ (zeroBandSample i s).demands = s.demands ∧
      (zeroBandSample i s).pending = s.pending ∧ (zeroBandSample i s).nowMs = s.nowMs ∧
      (zeroBandSample i s).seconds = s.seconds ∧ (∀ j, (zeroBandSample i s).present j = s.present j) ∧
      (∀ j, (zeroBandSample i s).adjOf j = s.adjOf j) ∧ (zeroBandSample i s).hld.input = s.hld.input ∧
      (zeroBandSample i s).hld.shutdown = s.hld.shutdown ∧ (zeroBandSample i s).hld.pageLost = s.hld.pageLost := by
  unfold zeroBandSample; dsimp only; split <;> simp

@[simp] theorem setLatch_frame (s : State) :
      (setLatch s).timeUs = s.timeUs ∧ (setLatch s).settings = s.settings ∧ (setLatch s).sfe = s.sfe ∧ (setLatch s).wac = s.wac ∧
      (setLatch s).abu = s.abu ∧ (setLatch s).ptb = s.ptb ∧ (setLatch s).rfu = s.rfu ∧ (setLatch s).adj = s.adj ∧
      (setLatch s).paths = s.paths ∧ (setLatch s).hld = s.hld ∧ (setLatch s).nvs = s.nvs ∧ (setLatch s).flg = s.flg ∧
      (setLatch s).requests = s.requests ∧ (setLatch s).svl = s.svl ∧ (setLatch s).arrivals = s.arrivals ∧
      (setLatch s).demands = s.demands ∧ (setLatch s).pending = s.pending ∧ (setLatch s).nowMs = s.nowMs ∧
      (setLatch s).seconds = s.seconds ∧ (∀ j, (setLatch s).present j = s.present j) ∧ (∀ j, (setLatch s).path j = s.path j) ∧
      (∀ j, (setLatch s).adjOf j = s.adjOf j) ∧ (∀ j, (setLatch s).hold j = s.hold j) := by
  unfold setLatch; split <;> simp

@[simp] theorem tripClear_frame (s : State) :
      (tripClear s).timeUs = s.timeUs ∧ (tripClear s).settings = s.settings ∧ (tripClear s).sfe = s.sfe ∧
      (tripClear s).wac = s.wac ∧ (tripClear s).abu = s.abu ∧ (tripClear s).ptb = s.ptb ∧ (tripClear s).rfu = s.rfu ∧
      (tripClear s).adj = s.adj ∧ (tripClear s).acu = s.acu ∧ (tripClear s).paths = s.paths ∧ (tripClear s).hld = s.hld ∧
      (tripClear s).nvs = s.nvs ∧ (tripClear s).flg = s.flg ∧ (tripClear s).requests = s.requests ∧ (tripClear s).svl = s.svl ∧
      (tripClear s).arrivals = s.arrivals ∧ (tripClear s).demands = s.demands ∧ (tripClear s).pending = s.pending ∧
      (tripClear s).nowMs = s.nowMs ∧ (tripClear s).seconds = s.seconds ∧ (∀ j, (tripClear s).present j = s.present j) ∧
      (∀ j, (tripClear s).path j = s.path j) ∧ (∀ j, (tripClear s).adjOf j = s.adjOf j) ∧
      (∀ j, (tripClear s).hold j = s.hold j) := by
  unfold tripClear; split <;> simp

@[simp] theorem clearLatch_frame (s : State) :
      (clearLatch s).timeUs = s.timeUs ∧ (clearLatch s).settings = s.settings ∧ (clearLatch s).sfe = s.sfe ∧
      (clearLatch s).wac = s.wac ∧ (clearLatch s).abu = s.abu ∧ (clearLatch s).ptb = s.ptb ∧ (clearLatch s).rfu = s.rfu ∧
      (clearLatch s).adj = s.adj ∧ (clearLatch s).paths = s.paths ∧ (clearLatch s).boxTrip = s.boxTrip ∧
      (clearLatch s).hld = s.hld ∧ (clearLatch s).nvs = s.nvs ∧ (clearLatch s).flg = s.flg ∧
      (clearLatch s).requests = s.requests ∧ (clearLatch s).svl = s.svl ∧ (clearLatch s).arrivals = s.arrivals ∧
      (clearLatch s).demands = s.demands ∧ (clearLatch s).pending = s.pending ∧ (clearLatch s).nowMs = s.nowMs ∧
      (clearLatch s).seconds = s.seconds ∧ (∀ j, (clearLatch s).present j = s.present j) ∧
      (∀ j, (clearLatch s).path j = s.path j) ∧ (∀ j, (clearLatch s).adjOf j = s.adjOf j) ∧
      (∀ j, (clearLatch s).hold j = s.hold j) := by
  simp [clearLatch]

@[simp] theorem beginWrite_frame (k : WriteKind) (p : Nat) (l : List Byte) (b : Bool) (s : State) :
      (beginWrite k p l b s).timeUs = s.timeUs ∧ (beginWrite k p l b s).settings = s.settings ∧
      (beginWrite k p l b s).sfe = s.sfe ∧ (beginWrite k p l b s).wac = s.wac ∧ (beginWrite k p l b s).abu = s.abu ∧
      (beginWrite k p l b s).ptb = s.ptb ∧ (beginWrite k p l b s).rfu = s.rfu ∧ (beginWrite k p l b s).adj = s.adj ∧
      (beginWrite k p l b s).acu = s.acu ∧ (beginWrite k p l b s).paths = s.paths ∧ (beginWrite k p l b s).boxTrip = s.boxTrip ∧
      (beginWrite k p l b s).hld = s.hld ∧ (beginWrite k p l b s).flg = s.flg ∧ (beginWrite k p l b s).requests = s.requests ∧
      (beginWrite k p l b s).svl = s.svl ∧ (beginWrite k p l b s).arrivals = s.arrivals ∧
      (beginWrite k p l b s).demands = s.demands ∧ (beginWrite k p l b s).pending = s.pending ∧
      (beginWrite k p l b s).nowMs = s.nowMs ∧ (beginWrite k p l b s).seconds = s.seconds ∧
      (∀ j, (beginWrite k p l b s).present j = s.present j) ∧ (∀ j, (beginWrite k p l b s).path j = s.path j) ∧
      (∀ j, (beginWrite k p l b s).adjOf j = s.adjOf j) ∧ (∀ j, (beginWrite k p l b s).hold j = s.hold j) := by
  simp [beginWrite]

@[simp] theorem beginLockoutWrite_frame (s : State) :
      (beginLockoutWrite s).timeUs = s.timeUs ∧ (beginLockoutWrite s).settings = s.settings ∧ (beginLockoutWrite s).sfe = s.sfe ∧
      (beginLockoutWrite s).wac = s.wac ∧ (beginLockoutWrite s).abu = s.abu ∧ (beginLockoutWrite s).ptb = s.ptb ∧
      (beginLockoutWrite s).rfu = s.rfu ∧ (beginLockoutWrite s).adj = s.adj ∧ (beginLockoutWrite s).acu = s.acu ∧
      (beginLockoutWrite s).paths = s.paths ∧ (beginLockoutWrite s).boxTrip = s.boxTrip ∧ (beginLockoutWrite s).hld = s.hld ∧
      (beginLockoutWrite s).flg = s.flg ∧ (beginLockoutWrite s).requests = s.requests ∧ (beginLockoutWrite s).svl = s.svl ∧
      (beginLockoutWrite s).arrivals = s.arrivals ∧ (beginLockoutWrite s).demands = s.demands ∧
      (beginLockoutWrite s).pending = s.pending ∧ (beginLockoutWrite s).nowMs = s.nowMs ∧
      (beginLockoutWrite s).seconds = s.seconds ∧ (∀ j, (beginLockoutWrite s).present j = s.present j) ∧
      (∀ j, (beginLockoutWrite s).path j = s.path j) ∧ (∀ j, (beginLockoutWrite s).adjOf j = s.adjOf j) ∧
      (∀ j, (beginLockoutWrite s).hold j = s.hold j) := by
  simp [beginLockoutWrite]

@[simp] theorem maskChange_frame (s : State) :
      (maskChange s).timeUs = s.timeUs ∧ (maskChange s).settings = s.settings ∧ (maskChange s).sfe = s.sfe ∧
      (maskChange s).wac = s.wac ∧ (maskChange s).abu = s.abu ∧ (maskChange s).ptb = s.ptb ∧ (maskChange s).rfu = s.rfu ∧
      (maskChange s).adj = s.adj ∧ (maskChange s).acu = s.acu ∧ (maskChange s).paths = s.paths ∧
      (maskChange s).boxTrip = s.boxTrip ∧ (maskChange s).hld = s.hld ∧ (maskChange s).flg = s.flg ∧
      (maskChange s).requests = s.requests ∧ (maskChange s).svl = s.svl ∧ (maskChange s).arrivals = s.arrivals ∧
      (maskChange s).demands = s.demands ∧ (maskChange s).pending = s.pending ∧ (maskChange s).nowMs = s.nowMs ∧
      (maskChange s).seconds = s.seconds ∧ (∀ j, (maskChange s).present j = s.present j) ∧
      (∀ j, (maskChange s).path j = s.path j) ∧ (∀ j, (maskChange s).adjOf j = s.adjOf j) ∧
      (∀ j, (maskChange s).hold j = s.hold j) := by
  unfold maskChange; split <;> simp

@[simp] theorem finishWrite_frame (w : Write) (s : State) :
      (finishWrite w s).timeUs = s.timeUs ∧ (finishWrite w s).settings = s.settings ∧ (finishWrite w s).sfe = s.sfe ∧
      (finishWrite w s).wac = s.wac ∧ (finishWrite w s).abu = s.abu ∧ (finishWrite w s).ptb = s.ptb ∧
      (finishWrite w s).rfu = s.rfu ∧ (finishWrite w s).adj = s.adj ∧ (finishWrite w s).acu = s.acu ∧
      (finishWrite w s).paths = s.paths ∧ (finishWrite w s).boxTrip = s.boxTrip ∧ (finishWrite w s).hld = s.hld ∧
      (finishWrite w s).flg = s.flg ∧ (finishWrite w s).requests = s.requests ∧ (finishWrite w s).svl = s.svl ∧
      (finishWrite w s).arrivals = s.arrivals ∧ (finishWrite w s).demands = s.demands ∧ (finishWrite w s).pending = s.pending ∧
      (finishWrite w s).nowMs = s.nowMs ∧ (finishWrite w s).seconds = s.seconds ∧
      (∀ j, (finishWrite w s).present j = s.present j) ∧ (∀ j, (finishWrite w s).path j = s.path j) ∧
      (∀ j, (finishWrite w s).adjOf j = s.adjOf j) ∧ (∀ j, (finishWrite w s).hold j = s.hold j) := by
  unfold finishWrite; dsimp only; split <;> simp

@[simp] theorem forPresent_frame (f : StringIdx → Hold → Hold) (s : State) :
      (forPresent f s).timeUs = s.timeUs ∧ (forPresent f s).settings = s.settings ∧ (forPresent f s).sfe = s.sfe ∧
      (forPresent f s).wac = s.wac ∧ (forPresent f s).abu = s.abu ∧ (forPresent f s).ptb = s.ptb ∧ (forPresent f s).rfu = s.rfu ∧
      (forPresent f s).adj = s.adj ∧ (forPresent f s).acu = s.acu ∧ (forPresent f s).paths = s.paths ∧
      (forPresent f s).boxTrip = s.boxTrip ∧ (forPresent f s).nvs = s.nvs ∧ (forPresent f s).flg = s.flg ∧
      (forPresent f s).requests = s.requests ∧ (forPresent f s).svl = s.svl ∧ (forPresent f s).arrivals = s.arrivals ∧
      (forPresent f s).demands = s.demands ∧ (forPresent f s).pending = s.pending ∧ (forPresent f s).nowMs = s.nowMs ∧
      (forPresent f s).seconds = s.seconds ∧ (∀ j, (forPresent f s).present j = s.present j) ∧
      (∀ j, (forPresent f s).path j = s.path j) ∧ (∀ j, (forPresent f s).adjOf j = s.adjOf j) ∧
      (forPresent f s).hld.input = s.hld.input ∧ (forPresent f s).hld.shutdown = s.hld.shutdown ∧
      (forPresent f s).hld.pageLost = s.hld.pageLost := by
  simp [forPresent]

@[simp] theorem goodRun_frame (c : Settings) (s : State) :
      (goodRun c s).timeUs = s.timeUs ∧ (goodRun c s).settings = s.settings ∧ (goodRun c s).sfe = s.sfe ∧
      (goodRun c s).wac = s.wac ∧ (goodRun c s).abu = s.abu ∧ (goodRun c s).ptb = s.ptb ∧ (goodRun c s).rfu = s.rfu ∧
      (goodRun c s).adj = s.adj ∧ (goodRun c s).acu = s.acu ∧ (goodRun c s).paths = s.paths ∧ (goodRun c s).boxTrip = s.boxTrip ∧
      (goodRun c s).nvs = s.nvs ∧ (goodRun c s).flg = s.flg ∧ (goodRun c s).requests = s.requests ∧ (goodRun c s).svl = s.svl ∧
      (goodRun c s).arrivals = s.arrivals ∧ (goodRun c s).demands = s.demands ∧ (goodRun c s).pending = s.pending ∧
      (goodRun c s).nowMs = s.nowMs ∧ (goodRun c s).seconds = s.seconds ∧ (∀ j, (goodRun c s).present j = s.present j) ∧
      (∀ j, (goodRun c s).path j = s.path j) ∧ (∀ j, (goodRun c s).adjOf j = s.adjOf j) ∧ (goodRun c s).hld.input = s.hld.input ∧
      (goodRun c s).hld.shutdown = s.hld.shutdown ∧ (goodRun c s).hld.pageLost = s.hld.pageLost := by
  simp [goodRun]

/-- A mask change touches the store unit alone, so every other part is what the action made it. -/
@[simp] theorem withMaskChange_frame (act : State → State) (s : State) :
      (withMaskChange act s).timeUs = (act s).timeUs ∧
      (withMaskChange act s).settings = (act s).settings ∧
      (withMaskChange act s).sfe = (act s).sfe ∧
      (withMaskChange act s).wac = (act s).wac ∧
      (withMaskChange act s).abu = (act s).abu ∧
      (withMaskChange act s).ptb = (act s).ptb ∧
      (withMaskChange act s).rfu = (act s).rfu ∧
      (withMaskChange act s).adj = (act s).adj ∧
      (withMaskChange act s).acu = (act s).acu ∧
      (withMaskChange act s).paths = (act s).paths ∧
      (withMaskChange act s).boxTrip = (act s).boxTrip ∧
      (withMaskChange act s).hld = (act s).hld ∧
      (withMaskChange act s).flg = (act s).flg ∧
      (withMaskChange act s).requests = (act s).requests ∧
      (withMaskChange act s).svl = (act s).svl ∧
      (withMaskChange act s).arrivals = (act s).arrivals ∧
      (withMaskChange act s).demands = (act s).demands ∧
      (withMaskChange act s).pending = (act s).pending ∧
      (withMaskChange act s).nowMs = (act s).nowMs ∧
      (withMaskChange act s).seconds = (act s).seconds ∧
      (∀ j, (withMaskChange act s).present j = (act s).present j) ∧
      (∀ j, (withMaskChange act s).path j = (act s).path j) ∧
      (∀ j, (withMaskChange act s).adjOf j = (act s).adjOf j) ∧
      (∀ j, (withMaskChange act s).hold j = (act s).hold j) := by
  unfold withMaskChange; dsimp only; split <;> simp

@[simp] theorem holdConsequence_frame (c : Settings) (i : StringIdx) (k : Consequence) (s : State) :
      (holdConsequence c i k s).timeUs = s.timeUs ∧ (holdConsequence c i k s).settings = s.settings ∧
      (holdConsequence c i k s).sfe = s.sfe ∧ (holdConsequence c i k s).wac = s.wac ∧ (holdConsequence c i k s).abu = s.abu ∧
      (holdConsequence c i k s).ptb = s.ptb ∧ (holdConsequence c i k s).rfu = s.rfu ∧ (holdConsequence c i k s).adj = s.adj ∧
      (holdConsequence c i k s).acu = s.acu ∧ (holdConsequence c i k s).paths = s.paths ∧
      (holdConsequence c i k s).boxTrip = s.boxTrip ∧ (holdConsequence c i k s).flg = s.flg ∧
      (holdConsequence c i k s).requests = s.requests ∧ (holdConsequence c i k s).svl = s.svl ∧
      (holdConsequence c i k s).arrivals = s.arrivals ∧ (holdConsequence c i k s).demands = s.demands ∧
      (holdConsequence c i k s).pending = s.pending ∧ (holdConsequence c i k s).nowMs = s.nowMs ∧
      (holdConsequence c i k s).seconds = s.seconds ∧ (∀ j, (holdConsequence c i k s).present j = s.present j) ∧
      (∀ j, (holdConsequence c i k s).path j = s.path j) ∧ (∀ j, (holdConsequence c i k s).adjOf j = s.adjOf j) ∧
      (holdConsequence c i k s).hld.input = s.hld.input ∧ (holdConsequence c i k s).hld.shutdown = s.hld.shutdown ∧
      (holdConsequence c i k s).hld.pageLost = s.hld.pageLost := by
  unfold holdConsequence; split <;> simp

@[simp] theorem considerClose_frame (i : StringIdx) (s : State) :
      (considerClose i s).timeUs = s.timeUs ∧ (considerClose i s).settings = s.settings ∧ (considerClose i s).sfe = s.sfe ∧
      (considerClose i s).abu = s.abu ∧ (considerClose i s).ptb = s.ptb ∧ (considerClose i s).rfu = s.rfu ∧
      (considerClose i s).adj = s.adj ∧ (considerClose i s).acu = s.acu ∧ (considerClose i s).boxTrip = s.boxTrip ∧
      (considerClose i s).nvs = s.nvs ∧ (considerClose i s).flg = s.flg ∧ (considerClose i s).requests = s.requests ∧
      (considerClose i s).svl = s.svl ∧ (considerClose i s).arrivals = s.arrivals ∧ (considerClose i s).demands = s.demands ∧
      (considerClose i s).pending = s.pending ∧ (considerClose i s).nowMs = s.nowMs ∧ (considerClose i s).seconds = s.seconds ∧
      (∀ j, (considerClose i s).present j = s.present j) ∧ (∀ j, (considerClose i s).adjOf j = s.adjOf j) ∧
      (considerClose i s).hld.input = s.hld.input ∧ (considerClose i s).hld.shutdown = s.hld.shutdown ∧
      (considerClose i s).hld.pageLost = s.hld.pageLost := by
  unfold considerClose; split <;> (try split) <;> (try split) <;> simp

@[simp] theorem recordFault_frame (d : Declaration) (s : State) :
      (recordFault d s).timeUs = s.timeUs ∧ (recordFault d s).settings = s.settings ∧ (recordFault d s).sfe = s.sfe ∧
      (recordFault d s).wac = s.wac ∧ (recordFault d s).abu = s.abu ∧ (recordFault d s).ptb = s.ptb ∧
      (recordFault d s).rfu = s.rfu ∧ (recordFault d s).adj = s.adj ∧ (recordFault d s).acu = s.acu ∧
      (recordFault d s).paths = s.paths ∧ (recordFault d s).boxTrip = s.boxTrip ∧ (recordFault d s).hld = s.hld ∧
      (recordFault d s).nvs = s.nvs ∧ (recordFault d s).requests = s.requests ∧ (recordFault d s).svl = s.svl ∧
      (recordFault d s).arrivals = s.arrivals ∧ (recordFault d s).demands = s.demands ∧ (recordFault d s).pending = s.pending ∧
      (recordFault d s).nowMs = s.nowMs ∧ (recordFault d s).seconds = s.seconds ∧
      (∀ j, (recordFault d s).present j = s.present j) ∧ (∀ j, (recordFault d s).path j = s.path j) ∧
      (∀ j, (recordFault d s).adjOf j = s.adjOf j) ∧ (∀ j, (recordFault d s).hold j = s.hold j) := by
  simp [recordFault]

@[simp] theorem sendDemand_frame (d : Declaration) (s : State) :
      (sendDemand d s).timeUs = s.timeUs ∧ (sendDemand d s).settings = s.settings ∧ (sendDemand d s).sfe = s.sfe ∧
      (sendDemand d s).wac = s.wac ∧ (sendDemand d s).abu = s.abu ∧ (sendDemand d s).ptb = s.ptb ∧ (sendDemand d s).rfu = s.rfu ∧
      (sendDemand d s).adj = s.adj ∧ (sendDemand d s).acu = s.acu ∧ (sendDemand d s).paths = s.paths ∧
      (sendDemand d s).boxTrip = s.boxTrip ∧ (sendDemand d s).hld = s.hld ∧ (sendDemand d s).nvs = s.nvs ∧
      (sendDemand d s).flg = s.flg ∧ (sendDemand d s).requests = s.requests ∧ (sendDemand d s).svl = s.svl ∧
      (sendDemand d s).arrivals = s.arrivals ∧ (sendDemand d s).pending = s.pending ∧ (sendDemand d s).nowMs = s.nowMs ∧
      (sendDemand d s).seconds = s.seconds ∧ (∀ j, (sendDemand d s).present j = s.present j) ∧
      (∀ j, (sendDemand d s).path j = s.path j) ∧ (∀ j, (sendDemand d s).adjOf j = s.adjOf j) ∧
      (∀ j, (sendDemand d s).hold j = s.hold j) := by
  unfold sendDemand; split <;> simp

@[simp] theorem declareFault_frame (c : Settings) (d : Declaration) (s : State) :
      (declareFault c d s).timeUs = s.timeUs ∧ (declareFault c d s).settings = s.settings ∧ (declareFault c d s).sfe = s.sfe ∧
      (declareFault c d s).wac = s.wac ∧ (declareFault c d s).abu = s.abu ∧ (declareFault c d s).ptb = s.ptb ∧
      (declareFault c d s).rfu = s.rfu ∧ (declareFault c d s).adj = s.adj ∧ (declareFault c d s).acu = s.acu ∧
      (declareFault c d s).paths = s.paths ∧ (declareFault c d s).boxTrip = s.boxTrip ∧
      (declareFault c d s).requests = s.requests ∧ (declareFault c d s).svl = s.svl ∧
      (declareFault c d s).arrivals = s.arrivals ∧ (declareFault c d s).pending = s.pending ∧
      (declareFault c d s).nowMs = s.nowMs ∧ (declareFault c d s).seconds = s.seconds ∧
      (∀ j, (declareFault c d s).present j = s.present j) ∧ (∀ j, (declareFault c d s).path j = s.path j) ∧
      (∀ j, (declareFault c d s).adjOf j = s.adjOf j) ∧ (declareFault c d s).hld.input = s.hld.input ∧
      (declareFault c d s).hld.shutdown = s.hld.shutdown ∧ (declareFault c d s).hld.pageLost = s.hld.pageLost := by
  simp [declareFault]

@[simp] theorem offerToBus_frame (f : Settings → Nat → Abu → Abu) (s : State) :
      (offerToBus f s).timeUs = s.timeUs ∧ (offerToBus f s).settings = s.settings ∧ (offerToBus f s).sfe = s.sfe ∧
      (offerToBus f s).wac = s.wac ∧ (offerToBus f s).ptb = s.ptb ∧ (offerToBus f s).rfu = s.rfu ∧ (offerToBus f s).adj = s.adj ∧
      (offerToBus f s).acu = s.acu ∧ (offerToBus f s).paths = s.paths ∧ (offerToBus f s).boxTrip = s.boxTrip ∧
      (offerToBus f s).hld = s.hld ∧ (offerToBus f s).nvs = s.nvs ∧ (offerToBus f s).flg = s.flg ∧
      (offerToBus f s).requests = s.requests ∧ (offerToBus f s).svl = s.svl ∧ (offerToBus f s).arrivals = s.arrivals ∧
      (offerToBus f s).demands = s.demands ∧ (offerToBus f s).pending = s.pending ∧ (offerToBus f s).nowMs = s.nowMs ∧
      (offerToBus f s).seconds = s.seconds ∧ (∀ j, (offerToBus f s).present j = s.present j) ∧
      (∀ j, (offerToBus f s).path j = s.path j) ∧ (∀ j, (offerToBus f s).adjOf j = s.adjOf j) ∧
      (∀ j, (offerToBus f s).hold j = s.hold j) := by
  unfold offerToBus; split <;> (try split) <;> simp

@[simp] theorem offerDigest_frame (b : List Byte) (s : State) :
      (offerDigest b s).timeUs = s.timeUs ∧ (offerDigest b s).settings = s.settings ∧ (offerDigest b s).sfe = s.sfe ∧
      (offerDigest b s).wac = s.wac ∧ (offerDigest b s).ptb = s.ptb ∧ (offerDigest b s).rfu = s.rfu ∧
      (offerDigest b s).adj = s.adj ∧ (offerDigest b s).acu = s.acu ∧ (offerDigest b s).paths = s.paths ∧
      (offerDigest b s).boxTrip = s.boxTrip ∧ (offerDigest b s).hld = s.hld ∧ (offerDigest b s).nvs = s.nvs ∧
      (offerDigest b s).flg = s.flg ∧ (offerDigest b s).requests = s.requests ∧ (offerDigest b s).svl = s.svl ∧
      (offerDigest b s).arrivals = s.arrivals ∧ (offerDigest b s).demands = s.demands ∧ (offerDigest b s).pending = s.pending ∧
      (offerDigest b s).nowMs = s.nowMs ∧ (offerDigest b s).seconds = s.seconds ∧
      (∀ j, (offerDigest b s).present j = s.present j) ∧ (∀ j, (offerDigest b s).path j = s.path j) ∧
      (∀ j, (offerDigest b s).adjOf j = s.adjOf j) ∧ (∀ j, (offerDigest b s).hold j = s.hold j) := by
  simp [offerDigest]

@[simp] theorem offerClaim_frame (b : List Byte) (s : State) :
      (offerClaim b s).timeUs = s.timeUs ∧ (offerClaim b s).settings = s.settings ∧ (offerClaim b s).sfe = s.sfe ∧
      (offerClaim b s).wac = s.wac ∧ (offerClaim b s).ptb = s.ptb ∧ (offerClaim b s).rfu = s.rfu ∧ (offerClaim b s).adj = s.adj ∧
      (offerClaim b s).acu = s.acu ∧ (offerClaim b s).paths = s.paths ∧ (offerClaim b s).boxTrip = s.boxTrip ∧
      (offerClaim b s).hld = s.hld ∧ (offerClaim b s).nvs = s.nvs ∧ (offerClaim b s).flg = s.flg ∧
      (offerClaim b s).requests = s.requests ∧ (offerClaim b s).svl = s.svl ∧ (offerClaim b s).arrivals = s.arrivals ∧
      (offerClaim b s).demands = s.demands ∧ (offerClaim b s).pending = s.pending ∧ (offerClaim b s).nowMs = s.nowMs ∧
      (offerClaim b s).seconds = s.seconds ∧ (∀ j, (offerClaim b s).present j = s.present j) ∧
      (∀ j, (offerClaim b s).path j = s.path j) ∧ (∀ j, (offerClaim b s).adjOf j = s.adjOf j) ∧
      (∀ j, (offerClaim b s).hold j = s.hold j) := by
  simp [offerClaim]

@[simp] theorem offerReply_frame (d : Nat) (b : List Byte) (s : State) :
      (offerReply d b s).timeUs = s.timeUs ∧ (offerReply d b s).settings = s.settings ∧ (offerReply d b s).sfe = s.sfe ∧
      (offerReply d b s).wac = s.wac ∧ (offerReply d b s).ptb = s.ptb ∧ (offerReply d b s).rfu = s.rfu ∧
      (offerReply d b s).adj = s.adj ∧ (offerReply d b s).acu = s.acu ∧ (offerReply d b s).paths = s.paths ∧
      (offerReply d b s).boxTrip = s.boxTrip ∧ (offerReply d b s).hld = s.hld ∧ (offerReply d b s).nvs = s.nvs ∧
      (offerReply d b s).flg = s.flg ∧ (offerReply d b s).requests = s.requests ∧ (offerReply d b s).svl = s.svl ∧
      (offerReply d b s).arrivals = s.arrivals ∧ (offerReply d b s).demands = s.demands ∧
      (offerReply d b s).pending = s.pending ∧ (offerReply d b s).nowMs = s.nowMs ∧ (offerReply d b s).seconds = s.seconds ∧
      (∀ j, (offerReply d b s).present j = s.present j) ∧ (∀ j, (offerReply d b s).path j = s.path j) ∧
      (∀ j, (offerReply d b s).adjOf j = s.adjOf j) ∧ (∀ j, (offerReply d b s).hold j = s.hold j) := by
  simp [offerReply]

@[simp] theorem openContest_frame (c : Settings) (n : Nat) (p : Peak) (s : State) :
      (openContest c n p s).timeUs = s.timeUs ∧ (openContest c n p s).settings = s.settings ∧ (openContest c n p s).sfe = s.sfe ∧
      (openContest c n p s).wac = s.wac ∧ (openContest c n p s).ptb = s.ptb ∧ (openContest c n p s).rfu = s.rfu ∧
      (openContest c n p s).adj = s.adj ∧ (openContest c n p s).paths = s.paths ∧ (openContest c n p s).hld = s.hld ∧
      (openContest c n p s).nvs = s.nvs ∧ (openContest c n p s).flg = s.flg ∧ (openContest c n p s).requests = s.requests ∧
      (openContest c n p s).svl = s.svl ∧ (openContest c n p s).arrivals = s.arrivals ∧
      (openContest c n p s).demands = s.demands ∧ (openContest c n p s).pending = s.pending ∧
      (openContest c n p s).nowMs = s.nowMs ∧ (openContest c n p s).seconds = s.seconds ∧
      (∀ j, (openContest c n p s).present j = s.present j) ∧ (∀ j, (openContest c n p s).path j = s.path j) ∧
      (∀ j, (openContest c n p s).adjOf j = s.adjOf j) ∧ (∀ j, (openContest c n p s).hold j = s.hold j) := by
  unfold openContest; split <;> simp

@[simp] theorem arcTick_frame (c : Settings) (s : State) :
      (arcTick c s).timeUs = s.timeUs ∧ (arcTick c s).settings = s.settings ∧ (arcTick c s).sfe = s.sfe ∧
      (arcTick c s).wac = s.wac ∧ (arcTick c s).ptb = s.ptb ∧ (arcTick c s).rfu = s.rfu ∧ (arcTick c s).adj = s.adj ∧
      (arcTick c s).paths = s.paths ∧ (arcTick c s).hld = s.hld ∧ (arcTick c s).nvs = s.nvs ∧ (arcTick c s).flg = s.flg ∧
      (arcTick c s).requests = s.requests ∧ (arcTick c s).svl = s.svl ∧ (arcTick c s).arrivals = s.arrivals ∧
      (arcTick c s).demands = s.demands ∧ (arcTick c s).pending = s.pending ∧ (arcTick c s).nowMs = s.nowMs ∧
      (arcTick c s).seconds = s.seconds ∧ (∀ j, (arcTick c s).present j = s.present j) ∧ (∀ j, (arcTick c s).path j = s.path j) ∧
      (∀ j, (arcTick c s).adjOf j = s.adjOf j) ∧ (∀ j, (arcTick c s).hold j = s.hold j) := by
  unfold arcTick; dsimp only; split <;> (try split) <;> (try split) <;> simp

@[simp] theorem winContest_frame (c : Settings) (n : Nat) (p : Peak) (i : StringIdx) (s : State) :
      (winContest c n p i s).timeUs = s.timeUs ∧ (winContest c n p i s).settings = s.settings ∧
      (winContest c n p i s).sfe = s.sfe ∧ (winContest c n p i s).wac = s.wac ∧ (winContest c n p i s).ptb = s.ptb ∧
      (winContest c n p i s).rfu = s.rfu ∧ (winContest c n p i s).adj = s.adj ∧ (winContest c n p i s).paths = s.paths ∧
      (winContest c n p i s).requests = s.requests ∧ (winContest c n p i s).svl = s.svl ∧
      (winContest c n p i s).arrivals = s.arrivals ∧ (winContest c n p i s).pending = s.pending ∧
      (winContest c n p i s).nowMs = s.nowMs ∧ (winContest c n p i s).seconds = s.seconds ∧
      (∀ j, (winContest c n p i s).present j = s.present j) ∧ (∀ j, (winContest c n p i s).path j = s.path j) ∧
      (∀ j, (winContest c n p i s).adjOf j = s.adjOf j) ∧ (winContest c n p i s).hld.input = s.hld.input ∧
      (winContest c n p i s).hld.shutdown = s.hld.shutdown ∧ (winContest c n p i s).hld.pageLost = s.hld.pageLost := by
  unfold winContest; dsimp only; split <;> simp

@[simp] theorem takeClaim_frame (c : Settings) (t : Telegram) (s : State) :
      (takeClaim c t s).timeUs = s.timeUs ∧ (takeClaim c t s).settings = s.settings ∧ (takeClaim c t s).sfe = s.sfe ∧
      (takeClaim c t s).wac = s.wac ∧ (takeClaim c t s).abu = s.abu ∧ (takeClaim c t s).ptb = s.ptb ∧
      (takeClaim c t s).rfu = s.rfu ∧ (takeClaim c t s).adj = s.adj ∧ (takeClaim c t s).paths = s.paths ∧
      (takeClaim c t s).boxTrip = s.boxTrip ∧ (takeClaim c t s).hld = s.hld ∧ (takeClaim c t s).nvs = s.nvs ∧
      (takeClaim c t s).flg = s.flg ∧ (takeClaim c t s).requests = s.requests ∧ (takeClaim c t s).svl = s.svl ∧
      (takeClaim c t s).arrivals = s.arrivals ∧ (takeClaim c t s).demands = s.demands ∧ (takeClaim c t s).pending = s.pending ∧
      (takeClaim c t s).nowMs = s.nowMs ∧ (takeClaim c t s).seconds = s.seconds ∧
      (∀ j, (takeClaim c t s).present j = s.present j) ∧ (∀ j, (takeClaim c t s).path j = s.path j) ∧
      (∀ j, (takeClaim c t s).adjOf j = s.adjOf j) ∧ (∀ j, (takeClaim c t s).hold j = s.hold j) := by
  unfold takeClaim; split <;> (try split) <;> simp

@[simp] theorem takeDigest_frame (c : Settings) (t : Telegram) (s : State) :
      (takeDigest c t s).timeUs = s.timeUs ∧ (takeDigest c t s).settings = s.settings ∧ (takeDigest c t s).sfe = s.sfe ∧
      (takeDigest c t s).wac = s.wac ∧ (takeDigest c t s).abu = s.abu ∧ (takeDigest c t s).rfu = s.rfu ∧
      (takeDigest c t s).adj = s.adj ∧ (takeDigest c t s).acu = s.acu ∧ (takeDigest c t s).paths = s.paths ∧
      (takeDigest c t s).boxTrip = s.boxTrip ∧ (takeDigest c t s).hld = s.hld ∧ (takeDigest c t s).nvs = s.nvs ∧
      (takeDigest c t s).flg = s.flg ∧ (takeDigest c t s).requests = s.requests ∧ (takeDigest c t s).svl = s.svl ∧
      (takeDigest c t s).arrivals = s.arrivals ∧ (takeDigest c t s).demands = s.demands ∧
      (takeDigest c t s).pending = s.pending ∧ (takeDigest c t s).nowMs = s.nowMs ∧ (takeDigest c t s).seconds = s.seconds ∧
      (∀ j, (takeDigest c t s).present j = s.present j) ∧ (∀ j, (takeDigest c t s).path j = s.path j) ∧
      (∀ j, (takeDigest c t s).adjOf j = s.adjOf j) ∧ (∀ j, (takeDigest c t s).hold j = s.hold j) := by
  unfold takeDigest; split <;> simp

@[simp] theorem enterSilent_frame (s : State) :
      (enterSilent s).timeUs = s.timeUs ∧ (enterSilent s).settings = s.settings ∧ (enterSilent s).sfe = s.sfe ∧
      (enterSilent s).wac = s.wac ∧ (enterSilent s).rfu = s.rfu ∧ (enterSilent s).adj = s.adj ∧ (enterSilent s).acu = s.acu ∧
      (enterSilent s).paths = s.paths ∧ (enterSilent s).boxTrip = s.boxTrip ∧ (enterSilent s).hld = s.hld ∧
      (enterSilent s).nvs = s.nvs ∧ (enterSilent s).flg = s.flg ∧ (enterSilent s).requests = s.requests ∧
      (enterSilent s).svl = s.svl ∧ (enterSilent s).arrivals = s.arrivals ∧ (enterSilent s).demands = s.demands ∧
      (enterSilent s).pending = s.pending ∧ (enterSilent s).nowMs = s.nowMs ∧ (enterSilent s).seconds = s.seconds ∧
      (∀ j, (enterSilent s).present j = s.present j) ∧ (∀ j, (enterSilent s).path j = s.path j) ∧
      (∀ j, (enterSilent s).adjOf j = s.adjOf j) ∧ (∀ j, (enterSilent s).hold j = s.hold j) := by
  simp [enterSilent]

@[simp] theorem deliverRequest_frame (t : Telegram) (s : State) :
      (deliverRequest t s).timeUs = s.timeUs ∧ (deliverRequest t s).settings = s.settings ∧ (deliverRequest t s).sfe = s.sfe ∧
      (deliverRequest t s).wac = s.wac ∧ (deliverRequest t s).ptb = s.ptb ∧ (deliverRequest t s).rfu = s.rfu ∧
      (deliverRequest t s).adj = s.adj ∧ (deliverRequest t s).acu = s.acu ∧ (deliverRequest t s).paths = s.paths ∧
      (deliverRequest t s).boxTrip = s.boxTrip ∧ (deliverRequest t s).hld = s.hld ∧ (deliverRequest t s).nvs = s.nvs ∧
      (deliverRequest t s).flg = s.flg ∧ (deliverRequest t s).svl = s.svl ∧ (deliverRequest t s).arrivals = s.arrivals ∧
      (deliverRequest t s).demands = s.demands ∧ (deliverRequest t s).pending = s.pending ∧
      (deliverRequest t s).nowMs = s.nowMs ∧ (deliverRequest t s).seconds = s.seconds ∧
      (∀ j, (deliverRequest t s).present j = s.present j) ∧ (∀ j, (deliverRequest t s).path j = s.path j) ∧
      (∀ j, (deliverRequest t s).adjOf j = s.adjOf j) ∧ (∀ j, (deliverRequest t s).hold j = s.hold j) := by
  unfold deliverRequest; dsimp only; split <;> simp

@[simp] theorem deliver_frame (c : Settings) (t : Telegram) (s : State) :
      (deliver c t s).timeUs = s.timeUs ∧ (deliver c t s).settings = s.settings ∧ (deliver c t s).sfe = s.sfe ∧
      (deliver c t s).wac = s.wac ∧ (deliver c t s).rfu = s.rfu ∧ (deliver c t s).adj = s.adj ∧ (deliver c t s).paths = s.paths ∧
      (deliver c t s).boxTrip = s.boxTrip ∧ (deliver c t s).hld = s.hld ∧ (deliver c t s).nvs = s.nvs ∧
      (deliver c t s).flg = s.flg ∧ (deliver c t s).svl = s.svl ∧ (deliver c t s).arrivals = s.arrivals ∧
      (deliver c t s).demands = s.demands ∧ (deliver c t s).pending = s.pending ∧ (deliver c t s).nowMs = s.nowMs ∧
      (deliver c t s).seconds = s.seconds ∧ (∀ j, (deliver c t s).present j = s.present j) ∧
      (∀ j, (deliver c t s).path j = s.path j) ∧ (∀ j, (deliver c t s).adjOf j = s.adjOf j) ∧
      (∀ j, (deliver c t s).hold j = s.hold j) := by
  unfold deliver deliverInSilent deliverInRun; dsimp only; split_ifs <;> simp

@[simp] theorem completeTelegram_frame (c : Settings) (l : List Byte) (s : State) :
      (completeTelegram c l s).timeUs = s.timeUs ∧ (completeTelegram c l s).settings = s.settings ∧
      (completeTelegram c l s).sfe = s.sfe ∧ (completeTelegram c l s).wac = s.wac ∧ (completeTelegram c l s).rfu = s.rfu ∧
      (completeTelegram c l s).adj = s.adj ∧ (completeTelegram c l s).paths = s.paths ∧
      (completeTelegram c l s).boxTrip = s.boxTrip ∧ (completeTelegram c l s).hld = s.hld ∧
      (completeTelegram c l s).nvs = s.nvs ∧ (completeTelegram c l s).flg = s.flg ∧ (completeTelegram c l s).svl = s.svl ∧
      (completeTelegram c l s).arrivals = s.arrivals ∧ (completeTelegram c l s).demands = s.demands ∧
      (completeTelegram c l s).pending = s.pending ∧ (completeTelegram c l s).nowMs = s.nowMs ∧
      (completeTelegram c l s).seconds = s.seconds ∧ (∀ j, (completeTelegram c l s).present j = s.present j) ∧
      (∀ j, (completeTelegram c l s).path j = s.path j) ∧ (∀ j, (completeTelegram c l s).adjOf j = s.adjOf j) ∧
      (∀ j, (completeTelegram c l s).hold j = s.hold j) := by
  unfold completeTelegram; dsimp only; split <;> simp

@[simp] theorem classifyByte_frame (c : Settings) (b : Byte) (e : Bool) (s : State) :
      (classifyByte c b e s).timeUs = s.timeUs ∧ (classifyByte c b e s).settings = s.settings ∧
      (classifyByte c b e s).sfe = s.sfe ∧ (classifyByte c b e s).wac = s.wac ∧ (classifyByte c b e s).rfu = s.rfu ∧
      (classifyByte c b e s).adj = s.adj ∧ (classifyByte c b e s).paths = s.paths ∧ (classifyByte c b e s).boxTrip = s.boxTrip ∧
      (classifyByte c b e s).hld = s.hld ∧ (classifyByte c b e s).nvs = s.nvs ∧ (classifyByte c b e s).flg = s.flg ∧
      (classifyByte c b e s).svl = s.svl ∧ (classifyByte c b e s).arrivals = s.arrivals ∧
      (classifyByte c b e s).demands = s.demands ∧ (classifyByte c b e s).pending = s.pending ∧
      (classifyByte c b e s).nowMs = s.nowMs ∧ (classifyByte c b e s).seconds = s.seconds ∧
      (∀ j, (classifyByte c b e s).present j = s.present j) ∧ (∀ j, (classifyByte c b e s).path j = s.path j) ∧
      (∀ j, (classifyByte c b e s).adjOf j = s.adjOf j) ∧ (∀ j, (classifyByte c b e s).hold j = s.hold j) := by
  unfold classifyByte; dsimp only; split <;> (try split) <;> (try split) <;> simp

@[simp] theorem fastCheck_frame (c : Settings) (i : StringIdx) (s : State) :
      (fastCheck c i s).timeUs = s.timeUs ∧ (fastCheck c i s).settings = s.settings ∧ (fastCheck c i s).sfe = s.sfe ∧
      (fastCheck c i s).wac = s.wac ∧ (fastCheck c i s).abu = s.abu ∧ (fastCheck c i s).ptb = s.ptb ∧
      (fastCheck c i s).rfu = s.rfu ∧ (fastCheck c i s).acu = s.acu ∧ (fastCheck c i s).paths = s.paths ∧
      (fastCheck c i s).boxTrip = s.boxTrip ∧ (fastCheck c i s).requests = s.requests ∧ (fastCheck c i s).svl = s.svl ∧
      (fastCheck c i s).arrivals = s.arrivals ∧ (fastCheck c i s).pending = s.pending ∧ (fastCheck c i s).nowMs = s.nowMs ∧
      (fastCheck c i s).seconds = s.seconds ∧ (∀ j, (fastCheck c i s).present j = s.present j) ∧
      (∀ j, (fastCheck c i s).path j = s.path j) ∧ (fastCheck c i s).hld.input = s.hld.input ∧
      (fastCheck c i s).hld.shutdown = s.hld.shutdown ∧ (fastCheck c i s).hld.pageLost = s.hld.pageLost := by
  unfold fastCheck; dsimp only; split <;> (try split) <;> simp

@[simp] theorem takeVerdict_frame (c : Settings) (e : VerdictEntry) (s : State) :
      (takeVerdict c e s).timeUs = s.timeUs ∧ (takeVerdict c e s).settings = s.settings ∧ (takeVerdict c e s).sfe = s.sfe ∧
      (takeVerdict c e s).wac = s.wac ∧ (takeVerdict c e s).abu = s.abu ∧ (takeVerdict c e s).ptb = s.ptb ∧
      (takeVerdict c e s).rfu = s.rfu ∧ (takeVerdict c e s).acu = s.acu ∧ (takeVerdict c e s).paths = s.paths ∧
      (takeVerdict c e s).boxTrip = s.boxTrip ∧ (takeVerdict c e s).requests = s.requests ∧ (takeVerdict c e s).svl = s.svl ∧
      (takeVerdict c e s).arrivals = s.arrivals ∧ (takeVerdict c e s).pending = s.pending ∧ (takeVerdict c e s).nowMs = s.nowMs ∧
      (takeVerdict c e s).seconds = s.seconds ∧ (∀ j, (takeVerdict c e s).present j = s.present j) ∧
      (∀ j, (takeVerdict c e s).path j = s.path j) ∧ (takeVerdict c e s).hld.input = s.hld.input ∧
      (takeVerdict c e s).hld.shutdown = s.hld.shutdown ∧ (takeVerdict c e s).hld.pageLost = s.hld.pageLost := by
  unfold takeVerdict; dsimp only; split <;> (try split) <;> (try split) <;> simp

/-- A part of the state that a step of a fold leaves alone is left alone by the whole fold. -/
theorem foldl_keeps {α σ β : Type} (get : σ → β) (f : σ → α → σ) (h : ∀ t a, get (f t a) = get t) (l : List α) (t : σ) :
    get (l.foldl f t) = get t := by
  induction l generalizing t with
  | nil => rfl
  | cons a l ih => rw [List.foldl_cons, ih, h]

@[simp] theorem takeVerdicts_frame (c : Settings) (l : List VerdictEntry) (s : State) :
      (takeVerdicts c l s).timeUs = s.timeUs ∧
      (takeVerdicts c l s).settings = s.settings ∧
      (takeVerdicts c l s).sfe = s.sfe ∧
      (takeVerdicts c l s).wac = s.wac ∧
      (takeVerdicts c l s).abu = s.abu ∧
      (takeVerdicts c l s).ptb = s.ptb ∧
      (takeVerdicts c l s).rfu = s.rfu ∧
      (takeVerdicts c l s).acu = s.acu ∧
      (takeVerdicts c l s).paths = s.paths ∧
      (takeVerdicts c l s).boxTrip = s.boxTrip ∧
      (takeVerdicts c l s).requests = s.requests ∧
      (takeVerdicts c l s).svl = s.svl ∧
      (takeVerdicts c l s).arrivals = s.arrivals ∧
      (takeVerdicts c l s).pending = s.pending ∧
      (takeVerdicts c l s).nowMs = s.nowMs ∧
      (takeVerdicts c l s).seconds = s.seconds ∧
      (∀ j, (takeVerdicts c l s).present j = s.present j) ∧
      (∀ j, (takeVerdicts c l s).path j = s.path j) ∧
      (takeVerdicts c l s).hld.input = s.hld.input ∧
      (takeVerdicts c l s).hld.shutdown = s.hld.shutdown ∧
      (takeVerdicts c l s).hld.pageLost = s.hld.pageLost :=
  ⟨foldl_keeps State.timeUs _ (by intros; simp) _ _,
   foldl_keeps State.settings _ (by intros; simp) _ _,
   foldl_keeps State.sfe _ (by intros; simp) _ _,
   foldl_keeps State.wac _ (by intros; simp) _ _,
   foldl_keeps State.abu _ (by intros; simp) _ _,
   foldl_keeps State.ptb _ (by intros; simp) _ _,
   foldl_keeps State.rfu _ (by intros; simp) _ _,
   foldl_keeps State.acu _ (by intros; simp) _ _,
   foldl_keeps State.paths _ (by intros; simp) _ _,
   foldl_keeps State.boxTrip _ (by intros; simp) _ _,
   foldl_keeps State.requests _ (by intros; simp) _ _,
   foldl_keeps State.svl _ (by intros; simp) _ _,
   foldl_keeps State.arrivals _ (by intros; simp) _ _,
   foldl_keeps State.pending _ (by intros; simp) _ _,
   foldl_keeps State.nowMs _ (by intros; simp) _ _,
   foldl_keeps State.seconds _ (by intros; simp) _ _,
   fun j => foldl_keeps (fun t : State => t.present j) _ (by intros; simp) _ _,
   fun j => foldl_keeps (fun t : State => t.path j) _ (by intros; simp) _ _,
   foldl_keeps (fun t : State => t.hld.input) _ (by intros; simp) _ _,
   foldl_keeps (fun t : State => t.hld.shutdown) _ (by intros; simp) _ _,
   foldl_keeps (fun t : State => t.hld.pageLost) _ (by intros; simp) _ _⟩

@[simp] theorem takeTickPart_frame (c : Settings) (s : State) (p : TickPart) :
      (takeTickPart c s p).timeUs = s.timeUs ∧ (takeTickPart c s p).settings = s.settings ∧ (takeTickPart c s p).sfe = s.sfe ∧
      (takeTickPart c s p).ptb = s.ptb ∧ (takeTickPart c s p).rfu = s.rfu ∧ (takeTickPart c s p).requests = s.requests ∧
      (takeTickPart c s p).svl = s.svl ∧ (takeTickPart c s p).arrivals = s.arrivals ∧ (takeTickPart c s p).pending = s.pending ∧
      (takeTickPart c s p).nowMs = s.nowMs ∧ (takeTickPart c s p).seconds = s.seconds ∧
      (∀ j, (takeTickPart c s p).present j = s.present j) ∧ (takeTickPart c s p).hld.input = s.hld.input ∧
      (takeTickPart c s p).hld.shutdown = s.hld.shutdown ∧ (takeTickPart c s p).hld.pageLost = s.hld.pageLost := by
  cases p <;> simp [takeTickPart]

@[simp] theorem tickParts_frame (c : Settings) (l : List TickPart) (s : State) :
      (l.foldl (takeTickPart c) s).timeUs = s.timeUs ∧
      (l.foldl (takeTickPart c) s).settings = s.settings ∧
      (l.foldl (takeTickPart c) s).sfe = s.sfe ∧
      (l.foldl (takeTickPart c) s).ptb = s.ptb ∧
      (l.foldl (takeTickPart c) s).rfu = s.rfu ∧
      (l.foldl (takeTickPart c) s).requests = s.requests ∧
      (l.foldl (takeTickPart c) s).svl = s.svl ∧
      (l.foldl (takeTickPart c) s).arrivals = s.arrivals ∧
      (l.foldl (takeTickPart c) s).pending = s.pending ∧
      (l.foldl (takeTickPart c) s).nowMs = s.nowMs ∧
      (l.foldl (takeTickPart c) s).seconds = s.seconds ∧
      (∀ j, (l.foldl (takeTickPart c) s).present j = s.present j) ∧
      (l.foldl (takeTickPart c) s).hld.input = s.hld.input ∧
      (l.foldl (takeTickPart c) s).hld.shutdown = s.hld.shutdown ∧
      (l.foldl (takeTickPart c) s).hld.pageLost = s.hld.pageLost :=
  ⟨foldl_keeps State.timeUs _ (by intros; simp) _ _,
   foldl_keeps State.settings _ (by intros; simp) _ _,
   foldl_keeps State.sfe _ (by intros; simp) _ _,
   foldl_keeps State.ptb _ (by intros; simp) _ _,
   foldl_keeps State.rfu _ (by intros; simp) _ _,
   foldl_keeps State.requests _ (by intros; simp) _ _,
   foldl_keeps State.svl _ (by intros; simp) _ _,
   foldl_keeps State.arrivals _ (by intros; simp) _ _,
   foldl_keeps State.pending _ (by intros; simp) _ _,
   foldl_keeps State.nowMs _ (by intros; simp) _ _,
   foldl_keeps State.seconds _ (by intros; simp) _ _,
   fun j => foldl_keeps (fun t : State => t.present j) _ (by intros; simp) _ _,
   foldl_keeps (fun t : State => t.hld.input) _ (by intros; simp) _ _,
   foldl_keeps (fun t : State => t.hld.shutdown) _ (by intros; simp) _ _,
   foldl_keeps (fun t : State => t.hld.pageLost) _ (by intros; simp) _ _⟩

@[simp] theorem takeArrival_frame (c : Settings) (s : State) (a : Arrival) :
      (takeArrival c s a).timeUs = s.timeUs ∧ (takeArrival c s a).settings = s.settings ∧ (takeArrival c s a).sfe = s.sfe ∧
      (takeArrival c s a).ptb = s.ptb ∧ (takeArrival c s a).rfu = s.rfu ∧ (takeArrival c s a).requests = s.requests ∧
      (takeArrival c s a).svl = s.svl ∧ (takeArrival c s a).arrivals = s.arrivals ∧ (takeArrival c s a).pending = s.pending ∧
      (takeArrival c s a).nowMs = s.nowMs ∧ (takeArrival c s a).seconds = s.seconds ∧
      (∀ j, (takeArrival c s a).present j = s.present j) ∧ (takeArrival c s a).hld.input = s.hld.input ∧
      (takeArrival c s a).hld.shutdown = s.hld.shutdown ∧ (takeArrival c s a).hld.pageLost = s.hld.pageLost := by
  cases a <;> simp [takeArrival]

@[simp] theorem arrivalFold_frame (c : Settings) (l : List Arrival) (s : State) :
      (l.foldl (takeArrival c) s).timeUs = s.timeUs ∧
      (l.foldl (takeArrival c) s).settings = s.settings ∧
      (l.foldl (takeArrival c) s).sfe = s.sfe ∧
      (l.foldl (takeArrival c) s).ptb = s.ptb ∧
      (l.foldl (takeArrival c) s).rfu = s.rfu ∧
      (l.foldl (takeArrival c) s).requests = s.requests ∧
      (l.foldl (takeArrival c) s).svl = s.svl ∧
      (l.foldl (takeArrival c) s).arrivals = s.arrivals ∧
      (l.foldl (takeArrival c) s).pending = s.pending ∧
      (l.foldl (takeArrival c) s).nowMs = s.nowMs ∧
      (l.foldl (takeArrival c) s).seconds = s.seconds ∧
      (∀ j, (l.foldl (takeArrival c) s).present j = s.present j) ∧
      (l.foldl (takeArrival c) s).hld.input = s.hld.input ∧
      (l.foldl (takeArrival c) s).hld.shutdown = s.hld.shutdown ∧
      (l.foldl (takeArrival c) s).hld.pageLost = s.hld.pageLost :=
  ⟨foldl_keeps State.timeUs _ (by intros; simp) _ _,
   foldl_keeps State.settings _ (by intros; simp) _ _,
   foldl_keeps State.sfe _ (by intros; simp) _ _,
   foldl_keeps State.ptb _ (by intros; simp) _ _,
   foldl_keeps State.rfu _ (by intros; simp) _ _,
   foldl_keeps State.requests _ (by intros; simp) _ _,
   foldl_keeps State.svl _ (by intros; simp) _ _,
   foldl_keeps State.arrivals _ (by intros; simp) _ _,
   foldl_keeps State.pending _ (by intros; simp) _ _,
   foldl_keeps State.nowMs _ (by intros; simp) _ _,
   foldl_keeps State.seconds _ (by intros; simp) _ _,
   fun j => foldl_keeps (fun t : State => t.present j) _ (by intros; simp) _ _,
   foldl_keeps (fun t : State => t.hld.input) _ (by intros; simp) _ _,
   foldl_keeps (fun t : State => t.hld.shutdown) _ (by intros; simp) _ _,
   foldl_keeps (fun t : State => t.hld.pageLost) _ (by intros; simp) _ _⟩

@[simp] theorem takeArrivals_frame (s : State) :
      (takeArrivals s).timeUs = s.timeUs ∧ (takeArrivals s).settings = s.settings ∧ (takeArrivals s).sfe = s.sfe ∧
      (takeArrivals s).ptb = s.ptb ∧ (takeArrivals s).rfu = s.rfu ∧ (takeArrivals s).requests = s.requests ∧
      (takeArrivals s).svl = s.svl ∧ (takeArrivals s).pending = s.pending ∧ (takeArrivals s).nowMs = s.nowMs ∧
      (takeArrivals s).seconds = s.seconds ∧ (∀ j, (takeArrivals s).present j = s.present j) ∧
      (takeArrivals s).hld.input = s.hld.input ∧ (takeArrivals s).hld.shutdown = s.hld.shutdown ∧
      (takeArrivals s).hld.pageLost = s.hld.pageLost := by
  unfold takeArrivals; split <;> simp

@[simp] theorem takeDemand_frame (s : State) (d : Demand) :
      (takeDemand s d).timeUs = s.timeUs ∧ (takeDemand s d).settings = s.settings ∧ (takeDemand s d).sfe = s.sfe ∧
      (takeDemand s d).abu = s.abu ∧ (takeDemand s d).ptb = s.ptb ∧ (takeDemand s d).rfu = s.rfu ∧ (takeDemand s d).adj = s.adj ∧
      (takeDemand s d).acu = s.acu ∧ (takeDemand s d).boxTrip = s.boxTrip ∧ (takeDemand s d).nvs = s.nvs ∧
      (takeDemand s d).flg = s.flg ∧ (takeDemand s d).requests = s.requests ∧ (takeDemand s d).svl = s.svl ∧
      (takeDemand s d).arrivals = s.arrivals ∧ (takeDemand s d).demands = s.demands ∧ (takeDemand s d).pending = s.pending ∧
      (takeDemand s d).nowMs = s.nowMs ∧ (takeDemand s d).seconds = s.seconds ∧ (∀ j, (takeDemand s d).present j = s.present j) ∧
      (∀ j, (takeDemand s d).adjOf j = s.adjOf j) ∧ (takeDemand s d).hld.input = s.hld.input ∧
      (takeDemand s d).hld.shutdown = s.hld.shutdown ∧ (takeDemand s d).hld.pageLost = s.hld.pageLost := by
  simp [takeDemand]

@[simp] theorem demandFold_frame (l : List Demand) (s : State) :
      (l.foldl takeDemand s).timeUs = s.timeUs ∧
      (l.foldl takeDemand s).settings = s.settings ∧
      (l.foldl takeDemand s).sfe = s.sfe ∧
      (l.foldl takeDemand s).abu = s.abu ∧
      (l.foldl takeDemand s).ptb = s.ptb ∧
      (l.foldl takeDemand s).rfu = s.rfu ∧
      (l.foldl takeDemand s).adj = s.adj ∧
      (l.foldl takeDemand s).acu = s.acu ∧
      (l.foldl takeDemand s).boxTrip = s.boxTrip ∧
      (l.foldl takeDemand s).nvs = s.nvs ∧
      (l.foldl takeDemand s).flg = s.flg ∧
      (l.foldl takeDemand s).requests = s.requests ∧
      (l.foldl takeDemand s).svl = s.svl ∧
      (l.foldl takeDemand s).arrivals = s.arrivals ∧
      (l.foldl takeDemand s).demands = s.demands ∧
      (l.foldl takeDemand s).pending = s.pending ∧
      (l.foldl takeDemand s).nowMs = s.nowMs ∧
      (l.foldl takeDemand s).seconds = s.seconds ∧
      (∀ j, (l.foldl takeDemand s).present j = s.present j) ∧
      (∀ j, (l.foldl takeDemand s).adjOf j = s.adjOf j) ∧
      (l.foldl takeDemand s).hld.input = s.hld.input ∧
      (l.foldl takeDemand s).hld.shutdown = s.hld.shutdown ∧
      (l.foldl takeDemand s).hld.pageLost = s.hld.pageLost :=
  ⟨foldl_keeps State.timeUs _ (by intros; simp) _ _,
   foldl_keeps State.settings _ (by intros; simp) _ _,
   foldl_keeps State.sfe _ (by intros; simp) _ _,
   foldl_keeps State.abu _ (by intros; simp) _ _,
   foldl_keeps State.ptb _ (by intros; simp) _ _,
   foldl_keeps State.rfu _ (by intros; simp) _ _,
   foldl_keeps State.adj _ (by intros; simp) _ _,
   foldl_keeps State.acu _ (by intros; simp) _ _,
   foldl_keeps State.boxTrip _ (by intros; simp) _ _,
   foldl_keeps State.nvs _ (by intros; simp) _ _,
   foldl_keeps State.flg _ (by intros; simp) _ _,
   foldl_keeps State.requests _ (by intros; simp) _ _,
   foldl_keeps State.svl _ (by intros; simp) _ _,
   foldl_keeps State.arrivals _ (by intros; simp) _ _,
   foldl_keeps State.demands _ (by intros; simp) _ _,
   foldl_keeps State.pending _ (by intros; simp) _ _,
   foldl_keeps State.nowMs _ (by intros; simp) _ _,
   foldl_keeps State.seconds _ (by intros; simp) _ _,
   fun j => foldl_keeps (fun t : State => t.present j) _ (by intros; simp) _ _,
   fun j => foldl_keeps (fun t : State => t.adjOf j) _ (by intros; simp) _ _,
   foldl_keeps (fun t : State => t.hld.input) _ (by intros; simp) _ _,
   foldl_keeps (fun t : State => t.hld.shutdown) _ (by intros; simp) _ _,
   foldl_keeps (fun t : State => t.hld.pageLost) _ (by intros; simp) _ _⟩

@[simp] theorem takeDemands_frame (s : State) :
      (takeDemands s).timeUs = s.timeUs ∧ (takeDemands s).settings = s.settings ∧ (takeDemands s).sfe = s.sfe ∧
      (takeDemands s).abu = s.abu ∧ (takeDemands s).ptb = s.ptb ∧ (takeDemands s).rfu = s.rfu ∧ (takeDemands s).adj = s.adj ∧
      (takeDemands s).acu = s.acu ∧ (takeDemands s).boxTrip = s.boxTrip ∧ (takeDemands s).nvs = s.nvs ∧
      (takeDemands s).flg = s.flg ∧ (takeDemands s).requests = s.requests ∧ (takeDemands s).svl = s.svl ∧
      (takeDemands s).arrivals = s.arrivals ∧ (takeDemands s).pending = s.pending ∧ (takeDemands s).nowMs = s.nowMs ∧
      (takeDemands s).seconds = s.seconds ∧ (∀ j, (takeDemands s).present j = s.present j) ∧
      (∀ j, (takeDemands s).adjOf j = s.adjOf j) ∧ (takeDemands s).hld.input = s.hld.input ∧
      (takeDemands s).hld.shutdown = s.hld.shutdown ∧ (takeDemands s).hld.pageLost = s.hld.pageLost := by
  simp [takeDemands]

@[simp] theorem endStep_frame (b : Bool) (s : State) :
      (endStep b s).timeUs = s.timeUs ∧ (endStep b s).settings = s.settings ∧ (endStep b s).sfe = s.sfe ∧
      (endStep b s).abu = s.abu ∧ (endStep b s).ptb = s.ptb ∧ (endStep b s).rfu = s.rfu ∧ (endStep b s).adj = s.adj ∧
      (endStep b s).acu = s.acu ∧ (endStep b s).boxTrip = s.boxTrip ∧ (endStep b s).nvs = s.nvs ∧ (endStep b s).flg = s.flg ∧
      (endStep b s).requests = s.requests ∧ (endStep b s).svl = s.svl ∧ (endStep b s).arrivals = s.arrivals ∧
      (endStep b s).pending = s.pending ∧ (endStep b s).nowMs = s.nowMs ∧ (endStep b s).seconds = s.seconds ∧
      (∀ j, (endStep b s).present j = s.present j) ∧ (∀ j, (endStep b s).adjOf j = s.adjOf j) ∧
      (endStep b s).hld.input = s.hld.input ∧ (endStep b s).hld.shutdown = s.hld.shutdown ∧
      (endStep b s).hld.pageLost = s.hld.pageLost := by
  unfold endStep; split <;> simp

@[simp] theorem settled_frame (s : State) :
      (s.settled).timeUs = s.timeUs ∧ (s.settled).settings = s.settings ∧ (s.settled).sfe = s.sfe ∧ (s.settled).ptb = s.ptb ∧
      (s.settled).rfu = s.rfu ∧ (s.settled).requests = s.requests ∧ (s.settled).svl = s.svl ∧ (s.settled).pending = s.pending ∧
      (s.settled).nowMs = s.nowMs ∧ (s.settled).seconds = s.seconds ∧ (∀ j, (s.settled).present j = s.present j) ∧
      (s.settled).hld.input = s.hld.input ∧ (s.settled).hld.shutdown = s.hld.shutdown ∧
      (s.settled).hld.pageLost = s.hld.pageLost := by
  simp [State.settled]

@[simp] theorem awaited_frame (dt : Nat) (s : State) :
      (s.awaited dt).timeUs = s.timeUs ∧ (s.awaited dt).settings = s.settings ∧ (s.awaited dt).sfe = s.sfe ∧
      (s.awaited dt).ptb = s.ptb ∧ (s.awaited dt).rfu = s.rfu ∧ (s.awaited dt).requests = s.requests ∧
      (s.awaited dt).svl = s.svl ∧ (s.awaited dt).pending = s.pending ∧ (s.awaited dt).nowMs = s.nowMs ∧
      (s.awaited dt).seconds = s.seconds ∧ (∀ j, (s.awaited dt).present j = s.present j) ∧
      (s.awaited dt).hld.input = s.hld.input ∧ (s.awaited dt).hld.shutdown = s.hld.shutdown ∧
      (s.awaited dt).hld.pageLost = s.hld.pageLost := by
  unfold State.awaited; split <;> simp

@[simp] theorem arrive_frame (dt : Nat) (s : State) :
      (s.arrive dt).settings = s.settings ∧ (s.arrive dt).sfe = s.sfe ∧ (s.arrive dt).ptb = s.ptb ∧ (s.arrive dt).rfu = s.rfu ∧
      (s.arrive dt).requests = s.requests ∧ (s.arrive dt).svl = s.svl ∧ (s.arrive dt).pending = s.pending ∧
      (∀ j, (s.arrive dt).present j = s.present j) ∧ (s.arrive dt).hld.input = s.hld.input ∧
      (s.arrive dt).hld.shutdown = s.hld.shutdown ∧ (s.arrive dt).hld.pageLost = s.hld.pageLost := by
  simp [State.arrive]

@[simp] theorem consumeTick_frame (c : Settings) (o : TickOrder) (s : State) :
      (consumeTick c o s).timeUs = s.timeUs ∧ (consumeTick c o s).settings = s.settings ∧ (consumeTick c o s).sfe = s.sfe ∧
      (consumeTick c o s).ptb = s.ptb ∧ (consumeTick c o s).rfu = s.rfu ∧ (consumeTick c o s).requests = s.requests ∧
      (consumeTick c o s).svl = s.svl ∧ (consumeTick c o s).pending = s.pending ∧ (consumeTick c o s).nowMs = s.nowMs ∧
      (consumeTick c o s).seconds = s.seconds ∧ (∀ j, (consumeTick c o s).present j = s.present j) ∧
      (consumeTick c o s).hld.input = s.hld.input ∧ (consumeTick c o s).hld.shutdown = s.hld.shutdown ∧
      (consumeTick c o s).hld.pageLost = s.hld.pageLost := by
  simp [consumeTick]

@[simp] theorem judgeWindow_frame (c : Settings) (b : CloseOrder) (w : WindowInput) (s : State) :
      (judgeWindow c b w s).timeUs = s.timeUs ∧ (judgeWindow c b w s).settings = s.settings ∧ (judgeWindow c b w s).sfe = s.sfe ∧
      (judgeWindow c b w s).ptb = s.ptb ∧ (judgeWindow c b w s).rfu = s.rfu ∧ (judgeWindow c b w s).requests = s.requests ∧
      (judgeWindow c b w s).svl = s.svl ∧ (judgeWindow c b w s).pending = s.pending ∧ (judgeWindow c b w s).nowMs = s.nowMs ∧
      (judgeWindow c b w s).seconds = s.seconds ∧ (∀ j, (judgeWindow c b w s).present j = s.present j) ∧
      (judgeWindow c b w s).hld.input = s.hld.input ∧ (judgeWindow c b w s).hld.shutdown = s.hld.shutdown ∧
      (judgeWindow c b w s).hld.pageLost = s.hld.pageLost := by
  unfold judgeWindow; split <;> simp

@[simp] theorem evaluateWindow_frame (w : WindowInput) (n : BitVec 16) (s : State) :
      (evaluateWindow w n s).timeUs = s.timeUs ∧ (evaluateWindow w n s).settings = s.settings ∧
      (evaluateWindow w n s).sfe = s.sfe ∧ (evaluateWindow w n s).wac = s.wac ∧ (evaluateWindow w n s).ptb = s.ptb ∧
      (evaluateWindow w n s).adj = s.adj ∧ (evaluateWindow w n s).acu = s.acu ∧ (evaluateWindow w n s).paths = s.paths ∧
      (evaluateWindow w n s).boxTrip = s.boxTrip ∧ (evaluateWindow w n s).hld = s.hld ∧ (evaluateWindow w n s).nvs = s.nvs ∧
      (evaluateWindow w n s).flg = s.flg ∧ (evaluateWindow w n s).requests = s.requests ∧ (evaluateWindow w n s).svl = s.svl ∧
      (evaluateWindow w n s).arrivals = s.arrivals ∧ (evaluateWindow w n s).demands = s.demands ∧
      (evaluateWindow w n s).pending = s.pending ∧ (evaluateWindow w n s).nowMs = s.nowMs ∧
      (evaluateWindow w n s).seconds = s.seconds ∧ (∀ j, (evaluateWindow w n s).present j = s.present j) ∧
      (∀ j, (evaluateWindow w n s).path j = s.path j) ∧ (∀ j, (evaluateWindow w n s).adjOf j = s.adjOf j) ∧
      (∀ j, (evaluateWindow w n s).hold j = s.hold j) := by
  simp [evaluateWindow]

@[simp] theorem closeWindow_frame (c : Settings) (b : CloseOrder) (s : State) :
      (closeWindow c b s).timeUs = s.timeUs ∧ (closeWindow c b s).settings = s.settings ∧ (closeWindow c b s).sfe = s.sfe ∧
      (closeWindow c b s).requests = s.requests ∧ (closeWindow c b s).svl = s.svl ∧ (closeWindow c b s).pending = s.pending ∧
      (closeWindow c b s).nowMs = s.nowMs ∧ (closeWindow c b s).seconds = s.seconds ∧
      (∀ j, (closeWindow c b s).present j = s.present j) ∧ (closeWindow c b s).hld.input = s.hld.input ∧
      (closeWindow c b s).hld.shutdown = s.hld.shutdown ∧ (closeWindow c b s).hld.pageLost = s.hld.pageLost := by
  simp [closeWindow]

/-! ### The service link: everything but the link's own part and the store unit -/

/-- The state without the Service link unit and the Nonvolatile store. -/
def State.linkRest (s : State) : State := { s with svl := Svl.reset, nvs := State.reset.nvs }

@[simp] theorem withSvl_linkRest (x : Svl) (s : State) : (s.withSvl x).linkRest = s.linkRest := by
  rfl

@[simp] theorem withNvs_linkRest (x : Nvs) (s : State) : (s.withNvs x).linkRest = s.linkRest := by
  rfl

@[simp] theorem sendAnswer_linkRest (l : List Byte) (s : State) : (sendAnswer l s).linkRest = s.linkRest := by
  rfl

@[simp] theorem beginWrite_linkRest (k : WriteKind) (p : Nat) (l : List Byte) (b : Bool) (s : State) : (beginWrite k p l b s).linkRest = s.linkRest := by
  rfl

@[simp] theorem endSession_linkRest (s : State) : (endSession s).linkRest = s.linkRest := by
  rfl

@[simp] theorem settleSilence_linkRest (s : State) : (settleSilence s).linkRest = s.linkRest := by
  unfold settleSilence; split_ifs <;> rfl

@[simp] theorem readPage_linkRest (b : Byte) (s : State) : (readPage b s).linkRest = s.linkRest := by
  unfold readPage; split <;> rfl

@[simp] theorem verifyPage_linkRest (s : State) : (verifyPage s).linkRest = s.linkRest := by
  unfold verifyPage; split <;> rfl

@[simp] theorem loadBuffer_linkRest (b : Byte) (l : List Byte) (s : State) : (loadBuffer b l s).linkRest = s.linkRest := by
  unfold loadBuffer; split <;> (try split) <;> rfl

@[simp] theorem programPage_linkRest (s : State) : (programPage s).linkRest = s.linkRest := by
  unfold programPage; split <;> (try split) <;> (try split) <;> simp

@[simp] theorem eraseStore_linkRest (s : State) : (eraseStore s).linkRest = s.linkRest := by
  unfold eraseStore; split <;> simp

@[simp] theorem sealStore_linkRest (s : State) : (sealStore s).linkRest = s.linkRest := by
  unfold sealStore; split <;> (try split) <;> (try split) <;> simp

@[simp] theorem restartPart_linkRest (s : State) : (restartPart s).linkRest = s.linkRest := by
  unfold restartPart; split <;> rfl

@[simp] theorem keepReceiving_linkRest (l : List Byte) (s : State) : (keepReceiving l s).linkRest = s.linkRest := by
  rfl

@[simp] theorem toSession_linkRest (x : Session) (s : State) : (toSession x s).linkRest = s.linkRest := by
  rfl

@[simp] theorem commandByte_linkRest (b : Byte) (s : State) : (commandByte b s).linkRest = s.linkRest := by
  unfold commandByte; split_ifs <;> first | rfl | simp

@[simp] theorem enterByte_linkRest (l : List Byte) (b : Byte) (s : State) : (enterByte l b s).linkRest = s.linkRest := by
  unfold enterByte; split <;> (try split) <;> rfl

@[simp] theorem argumentByte_linkRest (a : Byte) (l : List Byte) (b : Byte) (s : State) : (argumentByte a l b s).linkRest = s.linkRest := by
  unfold argumentByte; split_ifs <;> simp

@[simp] theorem openByte_linkRest (b : Byte) (s : State) : (openByte b s).linkRest = s.linkRest := by
  unfold openByte; split <;> (try split) <;> simp

@[simp] theorem sessionByte_linkRest (b : Byte) (s : State) : (sessionByte b s).linkRest = s.linkRest := by
  unfold sessionByte; split <;> (try split) <;> (try split) <;> simp

@[simp] theorem linkByte_linkRest (s : State) (b : Byte) : (linkByte s b).linkRest = s.linkRest := by
  simp [linkByte]

@[simp] theorem linkBytes_linkRest (l : List Byte) (s : State) : (linkBytes l s).linkRest = s.linkRest := by
  exact foldl_keeps State.linkRest _ linkByte_linkRest _ _

@[simp] theorem linkStopError_linkRest (s : State) : (linkStopError s).linkRest = s.linkRest := by
  unfold linkStopError; dsimp only; split <;> simp

@[simp] theorem completeService_linkRest (w : Write) (s : State) : (completeService w s).linkRest = s.linkRest := by
  unfold completeService finishWrite; dsimp only; split <;> split <;> rfl

@[simp] theorem sendAnswer_frame (l : List Byte) (s : State) :
      (sendAnswer l s).timeUs = s.timeUs ∧
      (sendAnswer l s).settings = s.settings ∧
      (sendAnswer l s).sfe = s.sfe ∧
      (sendAnswer l s).wac = s.wac ∧
      (sendAnswer l s).abu = s.abu ∧
      (sendAnswer l s).ptb = s.ptb ∧
      (sendAnswer l s).rfu = s.rfu ∧
      (sendAnswer l s).adj = s.adj ∧
      (sendAnswer l s).acu = s.acu ∧
      (sendAnswer l s).paths = s.paths ∧
      (sendAnswer l s).boxTrip = s.boxTrip ∧
      (sendAnswer l s).hld = s.hld ∧
      (sendAnswer l s).flg = s.flg ∧
      (sendAnswer l s).requests = s.requests ∧
      (sendAnswer l s).arrivals = s.arrivals ∧
      (sendAnswer l s).demands = s.demands ∧
      (sendAnswer l s).pending = s.pending ∧
      (sendAnswer l s).nowMs = s.nowMs ∧
      (sendAnswer l s).seconds = s.seconds ∧
      (∀ j, (sendAnswer l s).present j = s.present j) ∧
      (∀ j, (sendAnswer l s).path j = s.path j) ∧
      (∀ j, (sendAnswer l s).adjOf j = s.adjOf j) ∧
      (∀ j, (sendAnswer l s).hold j = s.hold j) :=
  have h := sendAnswer_linkRest l s
  ⟨(congrArg State.timeUs h :), (congrArg State.settings h :), (congrArg State.sfe h :), (congrArg State.wac h :), (congrArg State.abu h :), (congrArg State.ptb h :), (congrArg State.rfu h :), (congrArg State.adj h :), (congrArg State.acu h :), (congrArg State.paths h :), (congrArg State.boxTrip h :), (congrArg State.hld h :), (congrArg State.flg h :), (congrArg State.requests h :), (congrArg State.arrivals h :), (congrArg State.demands h :), (congrArg State.pending h :), (congrArg State.nowMs h :), (congrArg State.seconds h :), fun j => (congrArg (fun t : State => t.present j) h :), fun j => (congrArg (fun t : State => t.path j) h :), fun j => (congrArg (fun t : State => t.adjOf j) h :), fun j => (congrArg (fun t : State => t.hold j) h :)⟩

@[simp] theorem settleSilence_frame (s : State) :
      (settleSilence s).timeUs = s.timeUs ∧
      (settleSilence s).settings = s.settings ∧
      (settleSilence s).sfe = s.sfe ∧
      (settleSilence s).wac = s.wac ∧
      (settleSilence s).abu = s.abu ∧
      (settleSilence s).ptb = s.ptb ∧
      (settleSilence s).rfu = s.rfu ∧
      (settleSilence s).adj = s.adj ∧
      (settleSilence s).acu = s.acu ∧
      (settleSilence s).paths = s.paths ∧
      (settleSilence s).boxTrip = s.boxTrip ∧
      (settleSilence s).hld = s.hld ∧
      (settleSilence s).flg = s.flg ∧
      (settleSilence s).requests = s.requests ∧
      (settleSilence s).arrivals = s.arrivals ∧
      (settleSilence s).demands = s.demands ∧
      (settleSilence s).pending = s.pending ∧
      (settleSilence s).nowMs = s.nowMs ∧
      (settleSilence s).seconds = s.seconds ∧
      (∀ j, (settleSilence s).present j = s.present j) ∧
      (∀ j, (settleSilence s).path j = s.path j) ∧
      (∀ j, (settleSilence s).adjOf j = s.adjOf j) ∧
      (∀ j, (settleSilence s).hold j = s.hold j) :=
  have h := settleSilence_linkRest s
  ⟨(congrArg State.timeUs h :), (congrArg State.settings h :), (congrArg State.sfe h :), (congrArg State.wac h :), (congrArg State.abu h :), (congrArg State.ptb h :), (congrArg State.rfu h :), (congrArg State.adj h :), (congrArg State.acu h :), (congrArg State.paths h :), (congrArg State.boxTrip h :), (congrArg State.hld h :), (congrArg State.flg h :), (congrArg State.requests h :), (congrArg State.arrivals h :), (congrArg State.demands h :), (congrArg State.pending h :), (congrArg State.nowMs h :), (congrArg State.seconds h :), fun j => (congrArg (fun t : State => t.present j) h :), fun j => (congrArg (fun t : State => t.path j) h :), fun j => (congrArg (fun t : State => t.adjOf j) h :), fun j => (congrArg (fun t : State => t.hold j) h :)⟩

@[simp] theorem linkByte_frame (s : State) (b : Byte) :
      (linkByte s b).timeUs = s.timeUs ∧
      (linkByte s b).settings = s.settings ∧
      (linkByte s b).sfe = s.sfe ∧
      (linkByte s b).wac = s.wac ∧
      (linkByte s b).abu = s.abu ∧
      (linkByte s b).ptb = s.ptb ∧
      (linkByte s b).rfu = s.rfu ∧
      (linkByte s b).adj = s.adj ∧
      (linkByte s b).acu = s.acu ∧
      (linkByte s b).paths = s.paths ∧
      (linkByte s b).boxTrip = s.boxTrip ∧
      (linkByte s b).hld = s.hld ∧
      (linkByte s b).flg = s.flg ∧
      (linkByte s b).requests = s.requests ∧
      (linkByte s b).arrivals = s.arrivals ∧
      (linkByte s b).demands = s.demands ∧
      (linkByte s b).pending = s.pending ∧
      (linkByte s b).nowMs = s.nowMs ∧
      (linkByte s b).seconds = s.seconds ∧
      (∀ j, (linkByte s b).present j = s.present j) ∧
      (∀ j, (linkByte s b).path j = s.path j) ∧
      (∀ j, (linkByte s b).adjOf j = s.adjOf j) ∧
      (∀ j, (linkByte s b).hold j = s.hold j) :=
  have h := linkByte_linkRest s b
  ⟨(congrArg State.timeUs h :), (congrArg State.settings h :), (congrArg State.sfe h :), (congrArg State.wac h :), (congrArg State.abu h :), (congrArg State.ptb h :), (congrArg State.rfu h :), (congrArg State.adj h :), (congrArg State.acu h :), (congrArg State.paths h :), (congrArg State.boxTrip h :), (congrArg State.hld h :), (congrArg State.flg h :), (congrArg State.requests h :), (congrArg State.arrivals h :), (congrArg State.demands h :), (congrArg State.pending h :), (congrArg State.nowMs h :), (congrArg State.seconds h :), fun j => (congrArg (fun t : State => t.present j) h :), fun j => (congrArg (fun t : State => t.path j) h :), fun j => (congrArg (fun t : State => t.adjOf j) h :), fun j => (congrArg (fun t : State => t.hold j) h :)⟩

@[simp] theorem linkBytes_frame (l : List Byte) (s : State) :
      (linkBytes l s).timeUs = s.timeUs ∧
      (linkBytes l s).settings = s.settings ∧
      (linkBytes l s).sfe = s.sfe ∧
      (linkBytes l s).wac = s.wac ∧
      (linkBytes l s).abu = s.abu ∧
      (linkBytes l s).ptb = s.ptb ∧
      (linkBytes l s).rfu = s.rfu ∧
      (linkBytes l s).adj = s.adj ∧
      (linkBytes l s).acu = s.acu ∧
      (linkBytes l s).paths = s.paths ∧
      (linkBytes l s).boxTrip = s.boxTrip ∧
      (linkBytes l s).hld = s.hld ∧
      (linkBytes l s).flg = s.flg ∧
      (linkBytes l s).requests = s.requests ∧
      (linkBytes l s).arrivals = s.arrivals ∧
      (linkBytes l s).demands = s.demands ∧
      (linkBytes l s).pending = s.pending ∧
      (linkBytes l s).nowMs = s.nowMs ∧
      (linkBytes l s).seconds = s.seconds ∧
      (∀ j, (linkBytes l s).present j = s.present j) ∧
      (∀ j, (linkBytes l s).path j = s.path j) ∧
      (∀ j, (linkBytes l s).adjOf j = s.adjOf j) ∧
      (∀ j, (linkBytes l s).hold j = s.hold j) :=
  have h := linkBytes_linkRest l s
  ⟨(congrArg State.timeUs h :), (congrArg State.settings h :), (congrArg State.sfe h :), (congrArg State.wac h :), (congrArg State.abu h :), (congrArg State.ptb h :), (congrArg State.rfu h :), (congrArg State.adj h :), (congrArg State.acu h :), (congrArg State.paths h :), (congrArg State.boxTrip h :), (congrArg State.hld h :), (congrArg State.flg h :), (congrArg State.requests h :), (congrArg State.arrivals h :), (congrArg State.demands h :), (congrArg State.pending h :), (congrArg State.nowMs h :), (congrArg State.seconds h :), fun j => (congrArg (fun t : State => t.present j) h :), fun j => (congrArg (fun t : State => t.path j) h :), fun j => (congrArg (fun t : State => t.adjOf j) h :), fun j => (congrArg (fun t : State => t.hold j) h :)⟩

@[simp] theorem linkStopError_frame (s : State) :
      (linkStopError s).timeUs = s.timeUs ∧
      (linkStopError s).settings = s.settings ∧
      (linkStopError s).sfe = s.sfe ∧
      (linkStopError s).wac = s.wac ∧
      (linkStopError s).abu = s.abu ∧
      (linkStopError s).ptb = s.ptb ∧
      (linkStopError s).rfu = s.rfu ∧
      (linkStopError s).adj = s.adj ∧
      (linkStopError s).acu = s.acu ∧
      (linkStopError s).paths = s.paths ∧
      (linkStopError s).boxTrip = s.boxTrip ∧
      (linkStopError s).hld = s.hld ∧
      (linkStopError s).flg = s.flg ∧
      (linkStopError s).requests = s.requests ∧
      (linkStopError s).arrivals = s.arrivals ∧
      (linkStopError s).demands = s.demands ∧
      (linkStopError s).pending = s.pending ∧
      (linkStopError s).nowMs = s.nowMs ∧
      (linkStopError s).seconds = s.seconds ∧
      (∀ j, (linkStopError s).present j = s.present j) ∧
      (∀ j, (linkStopError s).path j = s.path j) ∧
      (∀ j, (linkStopError s).adjOf j = s.adjOf j) ∧
      (∀ j, (linkStopError s).hold j = s.hold j) :=
  have h := linkStopError_linkRest s
  ⟨(congrArg State.timeUs h :), (congrArg State.settings h :), (congrArg State.sfe h :), (congrArg State.wac h :), (congrArg State.abu h :), (congrArg State.ptb h :), (congrArg State.rfu h :), (congrArg State.adj h :), (congrArg State.acu h :), (congrArg State.paths h :), (congrArg State.boxTrip h :), (congrArg State.hld h :), (congrArg State.flg h :), (congrArg State.requests h :), (congrArg State.arrivals h :), (congrArg State.demands h :), (congrArg State.pending h :), (congrArg State.nowMs h :), (congrArg State.seconds h :), fun j => (congrArg (fun t : State => t.present j) h :), fun j => (congrArg (fun t : State => t.path j) h :), fun j => (congrArg (fun t : State => t.adjOf j) h :), fun j => (congrArg (fun t : State => t.hold j) h :)⟩

@[simp] theorem completeService_frame (w : Write) (s : State) :
      (completeService w s).timeUs = s.timeUs ∧
      (completeService w s).settings = s.settings ∧
      (completeService w s).sfe = s.sfe ∧
      (completeService w s).wac = s.wac ∧
      (completeService w s).abu = s.abu ∧
      (completeService w s).ptb = s.ptb ∧
      (completeService w s).rfu = s.rfu ∧
      (completeService w s).adj = s.adj ∧
      (completeService w s).acu = s.acu ∧
      (completeService w s).paths = s.paths ∧
      (completeService w s).boxTrip = s.boxTrip ∧
      (completeService w s).hld = s.hld ∧
      (completeService w s).flg = s.flg ∧
      (completeService w s).requests = s.requests ∧
      (completeService w s).arrivals = s.arrivals ∧
      (completeService w s).demands = s.demands ∧
      (completeService w s).pending = s.pending ∧
      (completeService w s).nowMs = s.nowMs ∧
      (completeService w s).seconds = s.seconds ∧
      (∀ j, (completeService w s).present j = s.present j) ∧
      (∀ j, (completeService w s).path j = s.path j) ∧
      (∀ j, (completeService w s).adjOf j = s.adjOf j) ∧
      (∀ j, (completeService w s).hold j = s.hold j) :=
  have h := completeService_linkRest w s
  ⟨(congrArg State.timeUs h :), (congrArg State.settings h :), (congrArg State.sfe h :), (congrArg State.wac h :), (congrArg State.abu h :), (congrArg State.ptb h :), (congrArg State.rfu h :), (congrArg State.adj h :), (congrArg State.acu h :), (congrArg State.paths h :), (congrArg State.boxTrip h :), (congrArg State.hld h :), (congrArg State.flg h :), (congrArg State.requests h :), (congrArg State.arrivals h :), (congrArg State.demands h :), (congrArg State.pending h :), (congrArg State.nowMs h :), (congrArg State.seconds h :), fun j => (congrArg (fun t : State => t.present j) h :), fun j => (congrArg (fun t : State => t.path j) h :), fun j => (congrArg (fun t : State => t.adjOf j) h :), fun j => (congrArg (fun t : State => t.hold j) h :)⟩

end Sys2Proof.Machine
end

