-- ==== Sys2Proof/Laws/Bus.lean ====
section
/-! SUPPORT. What the Array bus unit's operations write (chapter 2). -/

namespace Sys2Proof.Machine

/-! ### Draws (R39) -/

/-- A normal draw has 4 to 19 slots, whatever the free value is. -/
theorem drawSlots_normal (n : Nat) : 4 ≤ drawSlots false n ∧ drawSlots false n ≤ 19 := by
  simp only [drawSlots]
  constructor
  · simp
  · have := Nat.mod_lt (Config.freeDraw n) (show 0 < 16 by decide)
    simp
    omega

/-- An urgent draw has 0 to 3 slots, whatever the free value is. -/
theorem drawSlots_urgent (n : Nat) : drawSlots true n ≤ 3 := by
  have := Nat.mod_lt (Config.freeDraw n) (show 0 < 4 by decide)
  simp only [drawSlots, if_true]
  omega

/-! ### Offers (R32, R35 to R37) -/

/-- In RUN an offer reaches the unit. -/
theorem offerToBus_of_run {f : Settings → Nat → Abu → Abu} {c : Settings} {s : State} (hc : s.settings = some c)
    (h : s.abu.silent = false) : offerToBus f s = s.withAbu (f c s.timeUs s.abu) := by
  simp [offerToBus, hc, h]

/-- In SILENT nothing is offered. -/
theorem offerToBus_of_silent {f : Settings → Nat → Abu → Abu} {s : State} (h : s.abu.silent = true) : offerToBus f s = s := by
  unfold offerToBus
  split
  · rfl
  · simp [h]

/-- Beginning to send leaves the receiver and the tally. -/
@[simp] theorem startSending_frame (c : Settings) (a : Abu) :
    (a.startSending c).rx = a.rx ∧ (a.startSending c).taken = a.taken ∧ (a.startSending c).lastByteEnd = a.lastByteEnd ∧
      (a.startSending c).tally = a.tally ∧ (a.startSending c).silent = a.silent ∧ (a.startSending c).draws = a.draws := by
  unfold Abu.startSending
  split <;> simp

/-- An urgent deferral leaves the receiver and the tally. -/
@[simp] theorem deferUrgent_frame (c : Settings) (start now : Nat) (a : Abu) :
    (a.deferUrgent c start now).rx = a.rx ∧ (a.deferUrgent c start now).taken = a.taken ∧
      (a.deferUrgent c start now).lastByteEnd = a.lastByteEnd ∧ (a.deferUrgent c start now).tally = a.tally ∧
      (a.deferUrgent c start now).silent = a.silent := by
  unfold Abu.deferUrgent
  dsimp only
  split <;> simp

/-- So does the beginning of any deferral. -/
@[simp] theorem beginDeferral_frame (c : Settings) (now : Nat) (a : Abu) :
    (a.beginDeferral c now).rx = a.rx ∧ (a.beginDeferral c now).taken = a.taken ∧
      (a.beginDeferral c now).lastByteEnd = a.lastByteEnd ∧ (a.beginDeferral c now).tally = a.tally ∧
      (a.beginDeferral c now).silent = a.silent := by
  unfold Abu.beginDeferral
  split
  · simp
  · split <;> simp

/-- So does what follows the taking of an entry. -/
@[simp] theorem afterTaking_frame (c : Settings) (now : Nat) (u : Bool) (a : Abu) :
    (a.afterTaking c now u).rx = a.rx ∧ (a.afterTaking c now u).taken = a.taken ∧
      (a.afterTaking c now u).lastByteEnd = a.lastByteEnd ∧ (a.afterTaking c now u).tally = a.tally ∧
      (a.afterTaking c now u).silent = a.silent := by
  unfold Abu.afterTaking
  split <;> (try split) <;> (try split) <;> simp

/-- A new entry leaves the receiver, and of the tally every count but TX_DROPPED. -/
@[simp] theorem offerNew_frame (c : Settings) (now : Nat) (e : TxEntry) (a : Abu) :
    (a.offerNew c now e).rx = a.rx ∧ (a.offerNew c now e).taken = a.taken ∧ (a.offerNew c now e).lastByteEnd = a.lastByteEnd ∧
      (a.offerNew c now e).silent = a.silent ∧ (a.offerNew c now e).tally.valid = a.tally.valid ∧
      (a.offerNew c now e).tally.crcDiscard = a.tally.crcDiscard ∧ (a.offerNew c now e).tally.byteDiscard = a.tally.byteDiscard ∧
      (a.offerNew c now e).tally.headerIgnored = a.tally.headerIgnored ∧
      (a.offerNew c now e).tally.collisions = a.tally.collisions ∧
      (a.offerNew c now e).tally.repliesSuperseded = a.tally.repliesSuperseded := by
  unfold Abu.offerNew
  split <;> (try split) <;> simp [Tally.bumpDropped]

/-- So does a DIGEST or an ARC_CLAIM. -/
@[simp] theorem offerSingle_frame (c : Settings) (now : Nat) (k : TxKind) (b : List Byte) (a : Abu) :
    (a.offerSingle c now k b).rx = a.rx ∧ (a.offerSingle c now k b).taken = a.taken ∧
      (a.offerSingle c now k b).lastByteEnd = a.lastByteEnd ∧ (a.offerSingle c now k b).silent = a.silent ∧
      (a.offerSingle c now k b).tally.valid = a.tally.valid ∧ (a.offerSingle c now k b).tally.crcDiscard = a.tally.crcDiscard ∧
      (a.offerSingle c now k b).tally.byteDiscard = a.tally.byteDiscard ∧
      (a.offerSingle c now k b).tally.headerIgnored = a.tally.headerIgnored ∧
      (a.offerSingle c now k b).tally.collisions = a.tally.collisions ∧
      (a.offerSingle c now k b).tally.repliesSuperseded = a.tally.repliesSuperseded := by
  unfold Abu.offerSingle
  split <;> simp

/-- An entry offered to a queue with room, while the unit waits or while an urgent entry is not offered, is placed and that is all. -/
theorem offerNew_of_room {c : Settings} {now : Nat} {e : TxEntry} {a : Abu} (h : a.queue.length < 8)
    (ht : a.tx = .waiting ∨ a.tx = .sending ∨ (a.tx = .deferring ∧ e.urgent = false)) :
    a.offerNew c now e = { a with queue := placeEntry e a.queue } := by
  rw [Abu.offerNew, if_neg (by omega), Abu.afterTaking]
  rcases ht with ht | ht | ⟨ht, hu⟩
  · simp [ht]
  · simp [ht]
  · simp only [ht, hu]
    split
    · rfl
    · simp

/-- A normal entry offered to a full queue is dropped and counted. -/
theorem offerNew_of_full {c : Settings} {now : Nat} {e : TxEntry} {a : Abu} (h : 8 ≤ a.queue.length) (hu : e.urgent = false) :
    a.offerNew c now e = { a with tally := a.tally.bumpDropped } := by
  simp [Abu.offerNew, h, hu]

/-! ### Superseded replies (R38) -/

/-- Without a waiting reply to the source nothing is superseded. -/
theorem supersede_of_none {source : Nat} {a : Abu} (h : ∀ e ∈ a.queue, e.kind = .reply → e.dest ≠ source) :
    a.supersede source = a := by
  unfold Abu.supersede
  dsimp only
  rw [if_neg]
  simpa using h

/-- A supersession leaves the receiver, and of the tally every count but REPLIES_SUPERSEDED. -/
@[simp] theorem supersede_frame (source : Nat) (a : Abu) :
    (a.supersede source).rx = a.rx ∧ (a.supersede source).taken = a.taken ∧
      (a.supersede source).lastByteEnd = a.lastByteEnd ∧ (a.supersede source).silent = a.silent ∧
      (a.supersede source).tally.valid = a.tally.valid ∧ (a.supersede source).tally.crcDiscard = a.tally.crcDiscard ∧
      (a.supersede source).tally.byteDiscard = a.tally.byteDiscard ∧
      (a.supersede source).tally.headerIgnored = a.tally.headerIgnored ∧
      (a.supersede source).tally.collisions = a.tally.collisions ∧ (a.supersede source).tally.txDropped = a.tally.txDropped := by
  unfold Abu.supersede
  dsimp only
  split <;> simp [Tally.bumpSuperseded]

/-! ### The store and the trip line through an offer -/

/-- A reply is offered in the state's own Array bus unit. -/
theorem offerReply_of_run {d : Nat} {b : List Byte} {c : Settings} {s : State} (hc : s.settings = some c)
    (h : s.abu.silent = false) : offerReply d b s = s.withAbu (s.abu.offerNew c s.timeUs (TxEntry.fresh .reply d b)) :=
  offerToBus_of_run hc h

/-- A delivered telegram leaves the receiver as the check of its value has set it. -/
@[simp] theorem deliver_receiver (c : Settings) (t : Telegram) (s : State) :
    (deliver c t s).abu.rx = s.abu.rx ∧ (deliver c t s).abu.taken = s.abu.taken ∧
      (deliver c t s).abu.lastByteEnd = s.abu.lastByteEnd ∧ (deliver c t s).abu.tally.valid = s.abu.tally.valid := by
  have hreq : ∀ u : State, (deliverRequest t u).abu.rx = u.abu.rx ∧ (deliverRequest t u).abu.taken = u.abu.taken ∧
      (deliverRequest t u).abu.lastByteEnd = u.abu.lastByteEnd ∧ (deliverRequest t u).abu.tally.valid = u.abu.tally.valid := by
    intro u
    unfold deliverRequest offerReply offerToBus
    dsimp only
    split
    · simp
    · split
      · simp
      · split <;> simp
  unfold deliver deliverInSilent deliverInRun enterSilent
  dsimp only
  split_ifs <;> simp [hreq]

end Sys2Proof.Machine
end

