-- ==== Sys2Proof/Laws/Paths.lean ====
section
/-! SUPPORT. What the sequencer's operations write (chapter 7), and what they leave of the window accumulator and the holds. -/

namespace Sys2Proof

/-- Every index is in the list of all. -/
theorem StringIdx.mem_all (i : StringIdx) : i ∈ StringIdx.all := by revert i; decide

/-- No index is in the list twice. -/
theorem StringIdx.nodup_all : StringIdx.all.Nodup := by decide

namespace Machine

/-- A Boolean condition on every string. -/
theorem all_strings (f : StringIdx → Bool) : StringIdx.all.all f = true ↔ ∀ i, f i = true := by
  simp [List.all_eq_true, StringIdx.mem_all]

/-- A Boolean condition on some string. -/
theorem any_strings (f : StringIdx → Bool) : StringIdx.all.any f = true ↔ ∃ i, f i = true := by
  simp [List.any_eq_true, StringIdx.mem_all]

/-! ### A path change (R135) -/

/-- A path change writes the string's own path part. -/
theorem path_changePath (i j : StringIdx) (p : Path) (s : State) :
    (changePath i p s).path j = if j = i then p else s.path j := by
  unfold changePath notePathHold notePathWac
  dsimp only
  split_ifs <;> simp [State.path_setPath, *]

@[simp] theorem path_changePath_self (i : StringIdx) (p : Path) (s : State) : (changePath i p s).path i = p := by
  simp [path_changePath]

/-- A path change writes no other string's path part. -/
theorem path_changePath_ne {i j : StringIdx} (h : j ≠ i) (p : Path) (s : State) : (changePath i p s).path j = s.path j := by
  simp [path_changePath, h]

/-- A write of the path part with the same path state is no path change. -/
theorem changePath_of_eq {i : StringIdx} {p : Path} {s : State} (h : (s.path i).state = p.state) :
    changePath i p s = s.setPath i p := by
  simp [changePath, h]

/-- A change of path state that neither leaves nor enters CLOSED sets the path-change mark, and that is all its notices do. -/
theorem changePath_of_ne {i : StringIdx} {p : Path} {s : State} (h : (s.path i).state ≠ p.state)
    (old : (s.path i).state ≠ .closed) (new : p.state ≠ .closed) :
    changePath i p s = (s.setPath i p).withWac { s.wac with pathChanged := true } := by
  simp [changePath, h, notePathHold, notePathWac, old, new]

/-- Entry into CLOSED sets closed-since. -/
theorem changePath_of_closed {i : StringIdx} {p : Path} {s : State} (h : (s.path i).state ≠ .closed) (new : p.state = .closed) :
    changePath i p s = ((s.setPath i p).withWac { s.wac with pathChanged := true }).setHold i
      { s.hold i with closedSince := some s.nowMs } := by
  simp [changePath, h, notePathHold, notePathWac, new]

/-- A departure from CLOSED clears the closed-throughout flag and makes closed-since absent. -/
theorem changePath_from_closed {i : StringIdx} {p : Path} {s : State} (h : (s.path i).state = .closed) (new : p.state ≠ .closed) :
    changePath i p s = ((s.setPath i p).withWac
        { s.wac with pathChanged := true, closedThroughout := s.wac.closedThroughout.set i false }).setHold i
      { s.hold i with closedSince := none } := by
  simp [changePath, h, notePathHold, notePathWac, new, new.symm]

/-- A path change leaves every hold part but for the string's own closed-since time. -/
theorem hold_changePath (i j : StringIdx) (p : Path) (s : State) :
    (changePath i p s).hold j = if j = i then { s.hold i with closedSince :=
      if (s.path i).state = p.state then (s.hold i).closedSince else if p.state = .closed then some s.nowMs
      else if (s.path i).state = .closed then none else (s.hold i).closedSince } else s.hold j := by
  unfold changePath notePathHold notePathWac
  dsimp only
  split_ifs <;> simp_all [State.hold_setHold]

/-- A path change leaves the accumulator's sums, means, count, countdown, window number and box measurement. -/
@[simp] theorem wac_changePath (i : StringIdx) (p : Path) (s : State) :
    (changePath i p s).wac.sums = s.wac.sums ∧ (changePath i p s).wac.boxSum = s.wac.boxSum ∧
    (changePath i p s).wac.count = s.wac.count ∧ (changePath i p s).wac.countdown = s.wac.countdown ∧
    (changePath i p s).wac.sampleDue = s.wac.sampleDue ∧ (changePath i p s).wac.windowNumber = s.wac.windowNumber ∧
    (changePath i p s).wac.means = s.wac.means ∧ (changePath i p s).wac.boxValid = s.wac.boxValid ∧
    (changePath i p s).wac.mismatchRun = s.wac.mismatchRun ∧ (changePath i p s).wac.matchRun = s.wac.matchRun := by
  unfold changePath
  dsimp only
  split <;> simp [notePathWac]

/-- The path-change mark is set by a change of path state and never cleared by one. -/
theorem pathChanged_changePath (i : StringIdx) (p : Path) (s : State) :
    (changePath i p s).wac.pathChanged = (s.wac.pathChanged || decide ((s.path i).state ≠ p.state)) := by
  unfold changePath
  dsimp only
  split <;> simp_all [notePathWac]

/-! ### Open demands (R120) -/

/-- A demand in CONFIRMING, PARTING, ISOLATED or STUCK, and one in OPENING that is not a 1-step demand, changes nothing. -/
theorem demanded_eq {now : Ms} {r : Reason} {n : Nat} {p : Path}
    (h : p.state = .confirming ∨ p.state = .parting ∨ p.state = .isolated ∨ p.state = .stuck ∨
      (p.state = .opening ∧ (n ≠ 1 ∨ p.stepsLeft = some 1))) : p.demanded now r n = p := by
  unfold Path.demanded
  rcases h with h | h | h | h | ⟨h, h'⟩ <;> simp only [h]
  rw [if_neg]
  tauto

/-- An open demand writes the string's own path part. -/
theorem path_openDemand (i j : StringIdx) (r : Reason) (n : Nat) (s : State) :
    (openDemand i r n s).path j = if j = i then (s.path i).demanded s.nowMs r n else s.path j := by
  simp [openDemand, path_changePath]

/-- No demand enters CLOSED. -/
theorem demanded_state_closed {now : Ms} {r : Reason} {n : Nat} {p : Path} : (p.demanded now r n).state ≠ .closed := by
  unfold Path.demanded Path.beginOpening
  split <;> (try split) <;> simp_all

/-- A demand that leaves the path state leaves everything but the ramp's two fields. -/
theorem openDemand_of_demanded_eq {i : StringIdx} {r : Reason} {n : Nat} {s : State}
    (h : (s.path i).demanded s.nowMs r n = s.path i) : openDemand i r n s = s := by
  rw [openDemand, h, changePath_of_eq rfl, State.setPath_same]

/-- A demand leaves every hold part but for the string's own closed-since time, which it makes absent if the string was CLOSED. -/
theorem hold_openDemand (i j : StringIdx) (r : Reason) (n : Nat) (s : State) :
    (openDemand i r n s).hold j =
      if j = i ∧ (s.path i).state = .closed then { s.hold i with closedSince := none } else s.hold j := by
  have hc := demanded_state_closed (now := s.nowMs) (r := r) (n := n) (p := s.path i)
  unfold openDemand
  rw [hold_changePath]
  by_cases hj : j = i
  · subst hj
    by_cases hp : (s.path j).state = .closed
    · have : (s.path j).state ≠ ((s.path j).demanded s.nowMs r n).state := by rw [hp]; exact hc.symm
      simp [hp, hc, hc.symm]
    · simp [hp, hc]
  · simp [hj]

/-! ### The close permission (R130) -/

/-- A close permission moves an ISOLATED string with an empty hold set to MAKING. -/
theorem closePermission_of_isolated {i : StringIdx} {s : State} (h : (s.path i).state = .isolated) (e : (s.hold i).empty = true) :
    closePermission i s = (s.setPath i { s.path i with
      state := .making, deadline := some (s.nowMs + ms 30), isolationStart := none }).withWac { s.wac with pathChanged := true } := by
  rw [closePermission, if_pos ⟨h, e⟩, changePath_of_ne] <;> simp [h]

/-- Otherwise it is dropped. -/
theorem closePermission_of_not {i : StringIdx} {s : State} (h : (s.path i).state ≠ .isolated ∨ (s.hold i).empty = false) :
    closePermission i s = s := by
  rw [closePermission, if_neg]
  rintro ⟨a, b⟩
  simp_all

/-! ### Ramp arithmetic (R119) -/

/-- The steps of a ramp down lie between 1 and the step count. -/
theorem rampDownSteps_range (level : Nat) {n : Nat} (h : 1 ≤ n) : 1 ≤ rampDownSteps level n ∧ rampDownSteps level n ≤ n := by
  unfold rampDownSteps
  omega

/-- A whole ramp down takes every step of its count. -/
theorem rampDownSteps_full {n : Nat} (h : 1 ≤ n) (h' : n ≤ 16) : rampDownSteps 255 n = n := by
  revert h h'
  have : ∀ m : Fin 17, 1 ≤ m.val → rampDownSteps 255 m.val = m.val := by decide
  exact fun h h' => this ⟨n, by omega⟩ h

end Machine

end Sys2Proof
end

