-- ==== Sys2Proof/Laws/Holds.lean ====
section
/-! SUPPORT. What the Hold manager's operations write (chapter 8). -/

namespace Sys2Proof.Machine

/-! ### Close consideration and recheck (R142, R143) -/

/-- A close consideration hands a close permission to a present ISOLATED string with no hold whose voltage check passes. -/
theorem considerClose_of_voltageOk {c : Settings} {i : StringIdx} {s : State} (hc : s.settings = some c)
    (hp : c.strings[i].present = true) (hi : (s.path i).state = .isolated) (he : (s.hold i).empty = true)
    (hv : voltageOk c i s = true) :
    considerClose i s = (s.setPath i { s.path i with
      state := .making, deadline := some (s.nowMs + ms 30), isolationStart := none }).withWac { s.wac with pathChanged := true } := by
  rw [considerClose, hc]
  dsimp only
  rw [if_pos ⟨hp, hi, he⟩, if_pos hv, closePermission_of_isolated hi he]

/-- With a voltage check that fails, such a string gets VOLTAGE_WAIT. -/
theorem considerClose_of_not_voltageOk {c : Settings} {i : StringIdx} {s : State} (hc : s.settings = some c)
    (hp : c.strings[i].present = true) (hi : (s.path i).state = .isolated) (he : (s.hold i).empty = true)
    (hv : voltageOk c i s = false) :
    considerClose i s = s.setHold i { s.hold i with voltageRecheck := some (s.nowMs + ms 60000) } := by
  rw [considerClose, hc]
  dsimp only
  rw [if_pos ⟨hp, hi, he⟩, hv]
  rfl

/-- A close consideration of any other string does nothing. -/
theorem considerClose_of_not {i : StringIdx} {s : State}
    (h : (∀ c, s.settings = some c → c.strings[i].present = false) ∨ (s.path i).state ≠ .isolated ∨ (s.hold i).empty = false) :
    considerClose i s = s := by
  rw [considerClose]
  split
  · rfl
  · next c hc =>
    rw [if_neg]
    rintro ⟨hp, hi, he⟩
    rcases h with h | h | h
    · rw [h c hc] at hp; exact Bool.false_ne_true hp
    · exact h hi
    · simp [h] at he

/-- A close consideration leaves every other string. -/
theorem considerClose_other {i j : StringIdx} (h : j ≠ i) (s : State) :
    (considerClose i s).path j = s.path j ∧ (considerClose i s).hold j = s.hold j := by
  unfold considerClose closePermission
  split
  · simp
  · split_ifs <;> simp [path_changePath_ne h, hold_changePath, h, State.hold_setHold_ne]

/-- The voltage check as a comparison. -/
theorem voltageOk_iff {c : Settings} {i : StringIdx} {s : State} :
    voltageOk c i s = true ↔ ((s.sfe.voltages[i] : Int) - (s.sfe.bus : Int)).natAbs ≤ c.voltageWindow := by
  simp only [voltageOk, decide_eq_true_eq]

/-! ### Hold consequences (R140) -/

/-- A hold consequence writes the hold part of a present string. -/
theorem hold_holdConsequence (c : Settings) (i j : StringIdx) (k : Consequence) (s : State) :
    (holdConsequence c i k s).hold j =
      if j = i ∧ s.present i = true then (s.hold i).consequence c s.nowMs k else s.hold j := by
  unfold holdConsequence
  split
  · next h =>
    simp only [withMaskChange_frame, State.hold_setHold, h, and_true]
  · next h => simp [h]

/-- A string that is not present takes no consequence. -/
theorem holdConsequence_of_not_present {c : Settings} {i : StringIdx} {k : Consequence} {s : State} (h : s.present i = false) :
    holdConsequence c i k s = s := by
  simp [holdConsequence, h]

/-- An action that changes neither mask hands the store unit nothing. -/
theorem withMaskChange_of_eq {act : State → State} {s : State} (h : (act s).lockoutMask = s.lockoutMask)
    (h' : (act s).manualMask = s.manualMask) : withMaskChange act s = act s := by
  simp [withMaskChange, h, h']

/-! ### Changes of every present string -/

/-- What a change of every present string writes. -/
theorem hold_forPresent (f : StringIdx → Hold → Hold) (s : State) (i : StringIdx) :
    (forPresent f s).hold i = if s.present i = true then f i (s.hold i) else s.hold i := by
  simp [forPresent, State.hold, State.withHld]

/-- The good run writes the hold part of present CLOSED strings. -/
theorem hold_goodRun (c : Settings) (s : State) (i : StringIdx) :
    (goodRun c s).hold i = if s.present i = true ∧ (s.path i).state = .closed then
      (s.hold i).examined c s.nowMs (s.adjOf i).strikes else s.hold i := by
  rw [goodRun, hold_forPresent]
  split_ifs <;> simp_all

/-! ### Several strings at once -/

/-- A fold of writes of the hold parts of a list of strings without repetition. -/
theorem hold_foldl_setHold (f : Hold → Hold) (l : List StringIdx) (nd : l.Nodup) (s : State) (j : StringIdx) :
    (l.foldl (fun u i => u.setHold i (f (u.hold i))) s).hold j = if j ∈ l then f (s.hold j) else s.hold j := by
  induction l generalizing s with
  | nil => simp
  | cons a l ih =>
    rw [List.nodup_cons] at nd
    rw [List.foldl_cons, ih nd.2, State.hold_setHold]
    by_cases h : j = a
    · subst h
      simp [nd.1]
    · simp [h]

/-- Such a fold writes nothing else. -/
theorem foldl_setHold_frame (f : Hold → Hold) (l : List StringIdx) (s : State) :
    let t := l.foldl (fun u i => u.setHold i (f (u.hold i))) s
    t = s.withHld { s.hld with strings := t.hld.strings } := by
  induction l generalizing s with
  | nil => rfl
  | cons a l ih => exact ih _

/-- A fold of open demands on a list of strings without repetition, in the parts of one string. -/
theorem foldl_openDemand (r : Reason) (n : Nat) (l : List StringIdx) (nd : l.Nodup) (s : State) (j : StringIdx) :
    (l.foldl (fun t i => openDemand i r n t) s).path j
        = (if j ∈ l then (s.path j).demanded s.nowMs r n else s.path j) ∧
      (l.foldl (fun t i => openDemand i r n t) s).hold j
        = (if j ∈ l ∧ (s.path j).state = .closed then { s.hold j with closedSince := none } else s.hold j) := by
  induction l generalizing s with
  | nil => simp
  | cons a l ih =>
    rw [List.nodup_cons] at nd
    rw [List.foldl_cons, (ih nd.2 _).1, (ih nd.2 _).2, path_openDemand, hold_openDemand]
    by_cases h : j = a
    · subst h
      simp [nd.1]
    · simp [h]

end Sys2Proof.Machine
end

