-- ==== Sys2Proof/Laws/Faults.lean ====
section
/-! SUPPORT. What a declaration writes: the fault log, the string's hold part and the demands on their way (5.4, chapter 9). -/

namespace Sys2Proof.Machine

/-! ### The log (R154, R156, R157) -/

/-- Making room leaves the next sequence number. -/
@[simp] theorem makeRoom_nextSeq (f : Flg) : f.makeRoom.nextSeq = f.nextSeq := by
  unfold Flg.makeRoom; split <;> rfl

/-- A log with room is left as it is. -/
theorem makeRoom_of_lt {f : Flg} (h : f.records.length < 32) : f.makeRoom = f := by
  rw [Flg.makeRoom, if_neg (by omega)]

/-- The last record after a declaration is that of the declaration. -/
theorem append_getLast (d : Declaration) (seconds : Nat) (now : Ms) (f : Flg) :
    (f.append d seconds now).records.getLast? = some (recordOf d f.nextSeq seconds now) := by
  simp [Flg.append]

/-- A declaration without isolation start appends its record. -/
theorem flg_recordFault_none {d : Declaration} {s : State} (h : d.isolationStart = none) :
    (recordFault d s).flg = s.flg.append d s.seconds s.nowMs := by
  simp [recordFault, h]

/-- A declaration's record is the only part of the log that its two other arrivals leave to it. -/
@[simp] theorem flg_declareFault (c : Settings) (d : Declaration) (s : State) :
    (declareFault c d s).flg = (recordFault d s).flg := by
  simp [declareFault]

/-! ### The string's hold and the open demand (R91, R92) -/

/-- The open demand of a declaration joins those on their way. -/
theorem demands_sendDemand (d : Declaration) (s : State) :
    (sendDemand d s).demands = s.demands ++ (d.demand.map fun n => (⟨d.string, .fault d.cause, n⟩ : Demand)).toList := by
  unfold sendDemand
  split <;> simp_all

/-- What a declaration adds to the demands on their way. -/
theorem demands_declareFault (c : Settings) (d : Declaration) (s : State) :
    (declareFault c d s).demands = s.demands ++ (d.demand.map fun n => (⟨d.string, .fault d.cause, n⟩ : Demand)).toList := by
  simp [declareFault, demands_sendDemand]

/-- A declaration's hold consequence falls on its own string. -/
theorem hold_declareFault (c : Settings) (d : Declaration) (s : State) (j : StringIdx) :
    (declareFault c d s).hold j = if j = d.string then
      (if s.present j = true then (s.hold j).consequence c s.nowMs d.consequence else s.hold j) else s.hold j := by
  simp only [declareFault, sendDemand_frame, hold_holdConsequence, recordFault_frame]
  split_ifs <;> simp_all

/-- A declaration leaves every other string. -/
theorem declareFault_other {c : Settings} {d : Declaration} {s : State} {j : StringIdx} (h : j ≠ d.string) :
    (declareFault c d s).path j = s.path j ∧ (declareFault c d s).hold j = s.hold j := by
  simp [hold_declareFault, h]

/-- A consequence that is a lockout sets LOCKOUT. -/
theorem consequence_lockout (c : Settings) (now : Ms) (h : Hold) : (h.consequence c now .lockout).lockout = true := rfl

/-! ### Acknowledgement (R159) -/

/-- The records up to and including a number that stands in the log once are acknowledged; the others are left. -/
theorem acknowledgeUpTo_eq {seq station : Nat} {before after : List FaultRecord} {r : FaultRecord} (hr : r.seq = seq)
    (hb : ∀ q ∈ before, q.seq ≠ seq) :
    acknowledgeUpTo seq station (before ++ r :: after) =
      (before ++ [r]).map (fun q => if q.ackBy.isNone then { q with ackBy := some station } else q) ++ after := by
  induction before with
  | nil => simp [acknowledgeUpTo, hr]
  | cons q l ih =>
    have hq : q.seq ≠ seq := hb q (by simp)
    have hl : ∀ p ∈ l, p.seq ≠ seq := fun p hp => hb p (by simp [hp])
    simp only [List.cons_append, acknowledgeUpTo, hq, if_false, ih hl, List.map_cons]

/-- The records from a number on that stands in the log. -/
theorem dropWhile_seq {seq : Nat} {before after : List FaultRecord} (hb : ∀ q ∈ before, q.seq ≠ seq)
    (ha : after.head?.map FaultRecord.seq = some seq) :
    (before ++ after).dropWhile (fun r => decide (r.seq ≠ seq)) = after := by
  induction before with
  | nil => cases after with
    | nil => rfl
    | cons r l => simp_all
  | cons q l ih =>
    rw [List.cons_append, List.dropWhile_cons, if_pos (by simpa using hb q (by simp))]
    exact ih fun p hp => hb p (by simp [hp])

end Sys2Proof.Machine
end

