-- ==== Sys2Proof/Laws/Memory.lean ====
section
/-! SUPPORT. The store's memory: every operation keeps the canonical form, and what each reads afterwards (R176). -/

namespace Sys2Proof.Machine

/-- The canonical form of a cell and the cells behind it. -/
theorem wf_cons {k : Nat} {b : Byte} {m : Memory} :
    Memory.wf ((k, b) :: m) = true ↔ b ≠ erasedByte ∧ (∀ c ∈ m, k < c.1) ∧ Memory.wf m = true := by
  simp [Memory.wf, and_assoc]

/-- Below its first address a memory reads as erased. -/
theorem read_of_lt {m : Memory} {a : Nat} (h : ∀ c ∈ m, a < c.1) : Memory.read m a = erasedByte := by
  induction m with
  | nil => rfl
  | cons c m ih =>
    obtain ⟨k, b⟩ := c
    have hk : a < k := h (k, b) (by simp)
    rw [Memory.read, if_neg (by omega)]
    exact ih fun c hc => h c (by simp [hc])

/-! ### Writing one byte -/

/-- The addresses of a memory after a write are its own and the one written. -/
theorem mem_write {m : Memory} {a : Nat} {b : Byte} {c : Host.Cell} (h : c ∈ Memory.write m a b) : c ∈ m ∨ c = (a, b) := by
  induction m with
  | nil =>
    unfold Memory.write at h
    split at h <;> simp_all
  | cons d m ih =>
    obtain ⟨k, e⟩ := d
    unfold Memory.write at h
    split_ifs at h <;> simp only [List.mem_cons] at h ⊢
    · tauto
    · tauto
    · tauto
    · tauto
    · rcases h with h | h
      · tauto
      · have := ih h
        tauto

/-- A write keeps the canonical form. -/
theorem wf_write {m : Memory} (a : Nat) (b : Byte) (h : Memory.wf m = true) : Memory.wf (Memory.write m a b) = true := by
  induction m with
  | nil =>
    unfold Memory.write
    split
    · rfl
    · next hb => simp [hb, Memory.wf]
  | cons d m ih =>
    obtain ⟨k, e⟩ := d
    have hw := wf_cons.1 h
    unfold Memory.write
    split_ifs with h1 h2 h3 h4
    · exact h
    · refine wf_cons.2 ⟨h2, ?_, h⟩
      intro c hc
      rcases List.mem_cons.1 hc with rfl | hc
      · exact h1
      · exact h1.trans (hw.2.1 c hc)
    · exact hw.2.2
    · exact wf_cons.2 ⟨h4, by subst h3; exact hw.2.1, hw.2.2⟩
    · refine wf_cons.2 ⟨hw.1, ?_, ih hw.2.2⟩
      intro c hc
      rcases mem_write hc with hc | rfl
      · exact hw.2.1 c hc
      · show k < a
        omega

/-- A read after a write, in a canonical memory. -/
theorem read_write {m : Memory} (a : Nat) (b : Byte) (h : Memory.wf m = true) (x : Nat) :
    Memory.read (Memory.write m a b) x = if x = a then b else Memory.read m x := by
  induction m with
  | nil =>
    by_cases hb : b = erasedByte
    · by_cases hx : x = a <;> simp [Memory.write, hb, hx, Memory.read]
    · by_cases hx : x = a
      · simp [Memory.write, hb, hx, Memory.read]
      · have : ¬ a = x := fun e => hx e.symm
        simp [Memory.write, hb, hx, Memory.read, this]
  | cons d m ih =>
    obtain ⟨k, e⟩ := d
    have hw := wf_cons.1 h
    unfold Memory.write
    split_ifs with h1 h2 h3 h4 h5 h6 h7 h8 h9
    · subst h3
      rw [h2]
      refine read_of_lt fun c hc => ?_
      rcases List.mem_cons.1 hc with rfl | hc
      · exact h1
      · exact h1.trans (hw.2.1 c hc)
    · rfl
    · rw [Memory.read, if_pos h4.symm]
    · rw [Memory.read, if_neg fun he => h4 he.symm]
    · subst h7; subst h5
      rw [h6]
      exact read_of_lt hw.2.1
    · subst h5
      rw [Memory.read, if_neg fun he => h7 he.symm]
    · rw [Memory.read, if_pos h8.symm]
    · subst h5
      rw [Memory.read, if_neg fun he => h8 he.symm, Memory.read, if_neg fun he => h8 he.symm]
    · subst h9
      rw [Memory.read, if_neg fun he => h5 he.symm, ih hw.2.2, if_pos rfl]
    · by_cases hk : k = x
      · simp [Memory.read, hk]
      · rw [Memory.read, if_neg hk, ih hw.2.2, if_neg h9, Memory.read, if_neg hk]

/-! ### Writing bytes, erasing and programming pages -/

/-- Writing bytes keeps the canonical form. -/
theorem wf_writeBytes {m : Memory} (a : Nat) (l : List Byte) (h : Memory.wf m = true) :
    Memory.wf (Memory.writeBytes m a l) = true := by
  induction l generalizing m a with
  | nil => exact h
  | cons b l ih => exact ih _ (wf_write a b h)

/-- A read after writing bytes. -/
theorem read_writeBytes {m : Memory} (a : Nat) (l : List Byte) (h : Memory.wf m = true) (x : Nat) :
    Memory.read (Memory.writeBytes m a l) x = if a ≤ x ∧ x < a + l.length then l.getD (x - a) erasedByte else Memory.read m x := by
  induction l generalizing m a with
  | nil => simp [Memory.writeBytes]
  | cons b l ih =>
    rw [Memory.writeBytes, ih _ (wf_write a b h), read_write a b h, List.length_cons]
    by_cases h1 : x = a
    · subst h1
      rw [if_neg (by omega), if_pos rfl, if_pos (by omega), Nat.sub_self]
      rfl
    · by_cases h2 : a + 1 ≤ x ∧ x < a + 1 + l.length
      · have hx : x - a = x - (a + 1) + 1 := by omega
        rw [if_pos h2, if_pos (by omega), hx, List.getD_cons_succ]
      · rw [if_neg h2, if_neg h1, if_neg (by omega)]

/-- Filtering keeps the canonical form. -/
theorem wf_filter {m : Memory} (p : Host.Cell → Bool) (h : Memory.wf m = true) : Memory.wf (m.filter p) = true := by
  induction m with
  | nil => rfl
  | cons d m ih =>
    obtain ⟨k, e⟩ := d
    have hw := wf_cons.1 h
    rw [List.filter_cons]
    split
    · exact wf_cons.2 ⟨hw.1, fun c hc => hw.2.1 c (List.mem_of_mem_filter hc), ih hw.2.2⟩
    · exact ih hw.2.2

/-- Erasing a page keeps the canonical form. -/
theorem wf_erasePage {m : Memory} (p : Nat) (h : Memory.wf m = true) : Memory.wf (Memory.erasePage m p) = true := wf_filter _ h

/-- An erased page reads as erased; every other page is left. -/
theorem read_erasePage (m : Memory) (p a : Nat) :
    Memory.read (Memory.erasePage m p) a = if a / 64 = p then erasedByte else Memory.read m a := by
  unfold Memory.erasePage
  induction m with
  | nil => simp [Memory.read]
  | cons d m ih =>
    obtain ⟨k, e⟩ := d
    rw [List.filter_cons]
    by_cases hk : k / 64 = p
    · rw [if_neg (by simp [hk]), ih]
      by_cases ha : a / 64 = p
      · simp [ha]
      · have : ¬ k = a := fun he => ha (he ▸ hk)
        simp [ha, Memory.read, this]
    · rw [if_pos (by simpa using hk)]
      by_cases he : k = a
      · subst he
        simp [Memory.read, hk]
      · simp [Memory.read, he, ih]

/-- Erasing several pages. -/
theorem read_erasePages (l : List Nat) (m : Memory) (a : Nat) :
    Memory.read (l.foldl Memory.erasePage m) a = if a / 64 ∈ l then erasedByte else Memory.read m a := by
  induction l generalizing m with
  | nil => simp
  | cons p l ih =>
    rw [List.foldl_cons, ih, read_erasePage]
    by_cases h : a / 64 = p <;> by_cases h' : a / 64 ∈ l <;> simp [h, h']

/-- Erasing several pages keeps the canonical form. -/
theorem wf_erasePages (l : List Nat) {m : Memory} (h : Memory.wf m = true) : Memory.wf (l.foldl Memory.erasePage m) = true := by
  induction l generalizing m with
  | nil => exact h
  | cons p l ih => exact ih (wf_erasePage p h)

/-- Programming a page keeps the canonical form. -/
theorem wf_programPage {m : Memory} (p : Nat) (l : List Byte) (h : Memory.wf m = true) :
    Memory.wf (Memory.programPage m p l) = true := wf_writeBytes _ _ (wf_erasePage p h)

/-- A programmed page holds its content from byte 0 on, and erased bytes behind it; every other page is left. -/
theorem read_programPage {m : Memory} (p : Nat) (l : List Byte) (h : Memory.wf m = true) (a : Nat) :
    Memory.read (Memory.programPage m p l) a =
      if a / 64 = p then (l.take 64).getD (a % 64) erasedByte else Memory.read m a := by
  rw [Memory.programPage, read_writeBytes _ _ (wf_erasePage p h), read_erasePage]
  have hlen : (l.take 64).length ≤ 64 := by simp
  by_cases hp : a / 64 = p
  · have hd : a - 64 * p = a % 64 := by omega
    by_cases hr : 64 * p ≤ a ∧ a < 64 * p + (l.take 64).length
    · rw [if_pos hr, if_pos hp, hd]
    · rw [if_neg hr, if_pos hp, if_pos hp, List.getD_eq_getElem?_getD, List.getElem?_eq_none (by omega)]
      rfl
  · rw [if_neg (by omega), if_neg hp, if_neg hp]

/-! ### The store unit's operations -/

/-- Beginning a write keeps the canonical form. -/
theorem wf_beginWrite (k : WriteKind) (p : Nat) (l : List Byte) (b : Bool) {s : State} (h : Memory.wf s.nvs.store = true) :
    Memory.wf (beginWrite k p l b s).nvs.store = true := wf_erasePages _ h

/-- So does a mask change. -/
theorem wf_maskChange {s : State} (h : Memory.wf s.nvs.store = true) : Memory.wf (maskChange s).nvs.store = true := by
  unfold maskChange
  split
  · exact wf_beginWrite _ _ _ _ h
  · exact h

/-- So does an action of the Hold manager that leaves the store. -/
theorem wf_withMaskChange {act : State → State} {s : State} (h : Memory.wf (act s).nvs.store = true) :
    Memory.wf (withMaskChange act s).nvs.store = true := by
  unfold withMaskChange
  dsimp only
  split
  · exact h
  · exact wf_maskChange h

/-- So does programming a write's content. -/
theorem wf_programmed (w : Write) {m : Memory} (h : Memory.wf m = true) : Memory.wf (programmed w m) = true := by
  unfold programmed
  split
  · exact h
  · exact wf_programPage _ _ h
  · exact wf_programPage _ _ h
  · exact wf_programPage _ _ h

/-- So does completing a write. -/
theorem wf_finishWrite (w : Write) {s : State} (h : Memory.wf s.nvs.store = true) :
    Memory.wf (finishWrite w s).nvs.store = true := by
  unfold finishWrite
  dsimp only
  split
  · exact wf_beginWrite _ _ _ _ (wf_programmed w h)
  · exact wf_programmed w h

/-- So does a page that a reset cut off. -/
theorem wf_cutPage (n : Nat) (p : Nat) {m : Memory} (h : Memory.wf m = true) : Memory.wf (cutPage n m p) = true := by
  unfold cutPage freePage
  dsimp only
  split
  · exact wf_programPage _ _ h
  · exact wf_erasePage _ h

/-- So does cutting off a write. -/
theorem wf_cutOff {n : Nvs} (h : Memory.wf n.store = true) : Memory.wf (cutOff n).store = true := by
  rw [cutOff]
  split
  · exact h
  · next w _ =>
    dsimp only
    generalize w.kind.pages w.page = l
    generalize n.store = m at h
    induction l generalizing m with
    | nil => exact h
    | cons p l ih => exact ih _ (wf_cutPage _ _ h)

/-- The store after reset is in canonical form. -/
theorem wf_reset : Memory.wf State.reset.nvs.store = true := rfl

end Sys2Proof.Machine
end

