-- ==== Sys2Proof/Laws/PerInstr.lean ====
section
/-! SUPPORT. Statements made for each command on its own: the family ServiceBytes, about the bytes a command brings to the service
link. -/

namespace Sys2Proof.Laws.ServiceBytes

/-- The bytes that a command brings to the service link (12_telegram_and_record_layouts.md section 12.4): its command byte and its
argument bytes; none for a command that comes another way. -/
def bytes : Instr → List Byte
  | .enter _ args => 0xA7 :: args
  | .readFactory _ => [0x41]
  | .readPage _ args => 0x42 :: args
  | .loadBuffer _ args => 0x43 :: args
  | .programPage _ => [0x44]
  | .verifyPage _ => [0x45]
  | .eraseStore _ => [0x46]
  | .sealStore _ => [0x47]
  | .restart _ => [0x48]
  | .unknownCommandByte _ byte => [byte]
  | .powerOn _ | .supplyDip _ | .serviceRestart _ _ | .protectionTick _ _ _ | .windowSample _ | .windowClose _ _ => []
  | .shutdownAssertion _ | .shutdownDeassertion _ | .openingStep _ _ | .confirmDeadline _ _ | .partingDeadline _ _ => []
  | .makingDeadline _ _ | .closingStep _ _ | .retryEnd _ _ | .startupEnd _ _ | .voltageRecheck _ _ => []
  | .contestWindowEnd _ | .resolutionDeadline _ | .quietPeriodEnd _ | .settleEnd _ | .rivalExpiry _ _ => []
  | .telegramComplete _ _ | .idleGapExpiry _ | .deferralExpiry _ | .transmissionComplete _ | .collision _ => []
  | .isolate _ | .release _ | .acknowledge _ | .readStatus _ | .readStrings _ | .readLog _ | .readTally _ => []
  | .lockoutPageWriteComplete _ | .programComplete _ | .eraseComplete _ | .sealComplete _ => []
  | .commandTimeout _ | .sessionTimeout _ | .byteArrival _ _ _ | .serviceStopError _ => []

/-- A well-formed command brings at most 66 bytes, and the first of them is a command byte exactly when the command is not
UNKNOWN_COMMAND_BYTE. -/
def Statement (i : Instr) : Prop :=
  i.wellFormed = true → (bytes i).length ≤ 66 ∧
    ∀ b, (bytes i).head? = some b → (b ∈ serviceCommandBytes ↔ ∀ dt c, i ≠ .unknownCommandByte dt c)

/-- A command that brings no byte. -/
theorem of_nil {i : Instr} (h : bytes i = []) : Statement i := by
  intro _
  rw [h]
  exact ⟨Nat.zero_le _, fun b hb => by cases hb⟩

/-- A command with a command byte and few enough arguments. -/
theorem of_cons {i : Instr} {c : Byte} {args : List Byte} (h : bytes i = c :: args) (hc : c ∈ serviceCommandBytes)
    (hi : ∀ dt b, i ≠ .unknownCommandByte dt b) (hl : i.wellFormed = true → args.length ≤ 65) : Statement i := by
  intro hw
  rw [h]
  refine ⟨Nat.succ_le_succ (hl hw), fun b hb => ?_⟩
  have hb' : c = b := by simpa using hb
  subst hb'
  exact ⟨fun _ => hi, fun _ => hc⟩

theorem powerOn (shutdown : Bool) : Statement (.powerOn shutdown) := of_nil rfl

theorem supplyDip (shutdown : Bool) : Statement (.supplyDip shutdown) := of_nil rfl

theorem serviceRestart (dt : Nat) (shutdown : Bool) : Statement (.serviceRestart dt shutdown) := of_nil rfl

theorem protectionTick (dt : Nat) (raw : RawInputs) (order : TickOrder) : Statement (.protectionTick dt raw order) := of_nil rfl

theorem windowSample (dt : Nat) : Statement (.windowSample dt) := of_nil rfl

theorem windowClose (dt : Nat) (order : CloseOrder) : Statement (.windowClose dt order) := of_nil rfl

theorem shutdownAssertion (dt : Nat) : Statement (.shutdownAssertion dt) := of_nil rfl

theorem shutdownDeassertion (dt : Nat) : Statement (.shutdownDeassertion dt) := of_nil rfl

theorem openingStep (dt : Nat) (i : StringIdx) : Statement (.openingStep dt i) := of_nil rfl

theorem confirmDeadline (dt : Nat) (i : StringIdx) : Statement (.confirmDeadline dt i) := of_nil rfl

theorem partingDeadline (dt : Nat) (i : StringIdx) : Statement (.partingDeadline dt i) := of_nil rfl

theorem makingDeadline (dt : Nat) (i : StringIdx) : Statement (.makingDeadline dt i) := of_nil rfl

theorem closingStep (dt : Nat) (i : StringIdx) : Statement (.closingStep dt i) := of_nil rfl

theorem retryEnd (dt : Nat) (i : StringIdx) : Statement (.retryEnd dt i) := of_nil rfl

theorem startupEnd (dt : Nat) (i : StringIdx) : Statement (.startupEnd dt i) := of_nil rfl

theorem voltageRecheck (dt : Nat) (i : StringIdx) : Statement (.voltageRecheck dt i) := of_nil rfl

theorem contestWindowEnd (at' : ContestEnd) : Statement (.contestWindowEnd at') := of_nil rfl

theorem resolutionDeadline (dt : Nat) : Statement (.resolutionDeadline dt) := of_nil rfl

theorem quietPeriodEnd (dt : Nat) : Statement (.quietPeriodEnd dt) := of_nil rfl

theorem settleEnd (dt : Nat) : Statement (.settleEnd dt) := of_nil rfl

theorem rivalExpiry (dt : Nat) (station : Nat) : Statement (.rivalExpiry dt station) := of_nil rfl

theorem telegramComplete (dt : Nat) (byte : Byte) : Statement (.telegramComplete dt byte) := of_nil rfl

theorem idleGapExpiry (dt : Nat) : Statement (.idleGapExpiry dt) := of_nil rfl

theorem deferralExpiry (dt : Nat) : Statement (.deferralExpiry dt) := of_nil rfl

theorem transmissionComplete (dt : Nat) : Statement (.transmissionComplete dt) := of_nil rfl

theorem collision (dt : Nat) : Statement (.collision dt) := of_nil rfl

theorem isolate (dt : Nat) : Statement (.isolate dt) := of_nil rfl

theorem release (dt : Nat) : Statement (.release dt) := of_nil rfl

theorem acknowledge (dt : Nat) : Statement (.acknowledge dt) := of_nil rfl

theorem readStatus (dt : Nat) : Statement (.readStatus dt) := of_nil rfl

theorem readStrings (dt : Nat) : Statement (.readStrings dt) := of_nil rfl

theorem readLog (dt : Nat) : Statement (.readLog dt) := of_nil rfl

theorem readTally (dt : Nat) : Statement (.readTally dt) := of_nil rfl

theorem lockoutPageWriteComplete (dt : Nat) : Statement (.lockoutPageWriteComplete dt) := of_nil rfl

theorem enter (dt : Nat) (args : List Byte) : Statement (.enter dt args) := 
  of_cons rfl (by decide) (fun _ _ => Instr.noConfusion) fun h => (of_decide_eq_true h).trans (by decide)

theorem readFactory (dt : Nat) : Statement (.readFactory dt) := of_cons rfl (by decide) (fun _ _ => Instr.noConfusion) fun _ => Nat.zero_le _

theorem readPage (dt : Nat) (args : List Byte) : Statement (.readPage dt args) := 
  of_cons rfl (by decide) (fun _ _ => Instr.noConfusion) fun h => (of_decide_eq_true h).trans (by decide)

theorem verifyPage (dt : Nat) : Statement (.verifyPage dt) := of_cons rfl (by decide) (fun _ _ => Instr.noConfusion) fun _ => Nat.zero_le _

theorem loadBuffer (dt : Nat) (args : List Byte) : Statement (.loadBuffer dt args) := 
  of_cons rfl (by decide) (fun _ _ => Instr.noConfusion) fun h => (of_decide_eq_true h).trans (by decide)

theorem programPage (dt : Nat) : Statement (.programPage dt) := of_cons rfl (by decide) (fun _ _ => Instr.noConfusion) fun _ => Nat.zero_le _

theorem programComplete (dt : Nat) : Statement (.programComplete dt) := of_nil rfl

theorem eraseStore (dt : Nat) : Statement (.eraseStore dt) := of_cons rfl (by decide) (fun _ _ => Instr.noConfusion) fun _ => Nat.zero_le _

theorem eraseComplete (dt : Nat) : Statement (.eraseComplete dt) := of_nil rfl

theorem sealStore (dt : Nat) : Statement (.sealStore dt) := of_cons rfl (by decide) (fun _ _ => Instr.noConfusion) fun _ => Nat.zero_le _

theorem sealComplete (dt : Nat) : Statement (.sealComplete dt) := of_nil rfl

theorem restart (dt : Nat) : Statement (.restart dt) := of_cons rfl (by decide) (fun _ _ => Instr.noConfusion) fun _ => Nat.zero_le _

theorem unknownCommandByte (dt : Nat) (byte : Byte) : Statement (.unknownCommandByte dt byte) := by
  intro h
  have hb : ¬ byte ∈ serviceCommandBytes := by simpa [Instr.wellFormed] using h
  refine ⟨Nat.le_of_ble_eq_true rfl, fun b e => ?_⟩
  have e' : byte = b := by simpa [bytes] using e
  subst e'
  exact ⟨fun a => absurd a hb, fun a => absurd rfl (a dt byte)⟩

theorem commandTimeout (dt : Nat) : Statement (.commandTimeout dt) := of_nil rfl

theorem sessionTimeout (dt : Nat) : Statement (.sessionTimeout dt) := of_nil rfl

theorem byteArrival (dt : Nat) (byte : Byte) (stopError : Bool) : Statement (.byteArrival dt byte stopError) := of_nil rfl

theorem serviceStopError (dt : Nat) : Statement (.serviceStopError dt) := of_nil rfl

end Sys2Proof.Laws.ServiceBytes
end

