-- ==== Sys2Proof/Laws/Ticks.lean ====
section
/-! SUPPORT. What one protection tick does to each string and to the Arc contest unit, whatever the order of its consumers (R7, R87
to R90, R100, R124). -/

namespace Sys2Proof.Machine

/-! ### The schedule -/

/-- What is left of a list without its repetitions has none. -/
theorem nodup_eraseDups {α : Type} [DecidableEq α] (l : List α) : l.eraseDups.Nodup := by
  generalize hn : l.length = n
  induction n using Nat.strong_induction_on generalizing l with
  | _ n ih =>
    cases l with
    | nil => simp
    | cons a l =>
      rw [List.eraseDups_cons, List.nodup_cons]
      refine ⟨by simp, ih _ ?_ _ rfl⟩
      have := List.length_filter_le (fun b => !b == a) l
      simp only [List.length_cons] at hn
      omega

/-- Every part of a tick is in the list of all. -/
theorem TickPart.mem_all (p : TickPart) : p ∈ TickPart.all := by
  cases p with
  | fastCheck i => simp [TickPart.all, StringIdx.mem_all]
  | arcContest => simp [TickPart.all]
  | zeroBand i => simp [TickPart.all, StringIdx.mem_all]

/-- The schedule holds every part that is not late. -/
theorem mem_tickSchedule (order : TickOrder) (p : TickPart) : p ∈ tickSchedule order ↔ p ∉ order.late := by
  simp [tickSchedule, TickPart.mem_all]

/-- No part is in the schedule twice. -/
theorem nodup_tickSchedule (order : TickOrder) : (tickSchedule order).Nodup := (nodup_eraseDups _).filter _

/-! ### One part -/

/-- The runs of another string are left. -/
theorem adjOf_fastCheck_ne {c : Settings} {i j : StringIdx} (h : j ≠ i) (s : State) :
    (fastCheck c i s).adjOf j = s.adjOf j := by
  unfold fastCheck
  dsimp only
  split
  · split <;> simp [State.adjOf_setAdj_ne _ _ h]
  · simp [State.adjOf_setAdj_ne _ _ h]

/-- The hold part of another string is left. -/
theorem hold_fastCheck_ne {c : Settings} {i j : StringIdx} (h : j ≠ i) (s : State) : (fastCheck c i s).hold j = s.hold j := by
  unfold fastCheck
  dsimp only
  split
  · split
    · simp
    · next d hd =>
      have hs : d.string = i := by
        revert hd
        unfold AdjRecord.fastDeclaration
        split_ifs <;> simp [fastFault] <;> rintro rfl <;> rfl
      rw [hold_declareFault, if_neg (by rw [hs]; exact h)]
      simp
  · simp

/-- The fast check of a string reads its own record, its own path part and its own current alone. -/
theorem adjOf_fastCheck (c : Settings) (i : StringIdx) (s : State) :
    (fastCheck c i s).adjOf i =
      if (s.path i).connected = true then
        (let a := (s.adjOf i).sampled c s.sfe.currents[i]
          if 3 ≤ a.reverseRun ∨ 3 ≤ a.overRun then a.untested else a)
      else (s.adjOf i).untested := by
  unfold fastCheck
  split
  · dsimp only
    split
    · next h =>
      rw [if_neg]
      · simp
      · revert h
        unfold AdjRecord.fastDeclaration
        split_ifs <;> simp_all
    · next d h =>
      rw [if_pos]
      · simp
      · revert h
        unfold AdjRecord.fastDeclaration
        split_ifs <;> simp_all
  · simp

/-- A zero-band test leaves the path part of another string. -/
theorem path_zeroBandSample_ne {i k : StringIdx} (h : i ≠ k) (s : State) : (zeroBandSample k s).path i = s.path i := by
  unfold zeroBandSample
  dsimp only
  split <;> simp [path_changePath_ne h]

/-- A zero-band test reads its own path part, its own current and the time alone. -/
theorem path_zeroBandSample_congr (i : StringIdx) {s t : State} (hp : t.path i = s.path i) (hs : t.sfe = s.sfe)
    (hn : t.nowMs = s.nowMs) : (zeroBandSample i t).path i = (zeroBandSample i s).path i := by
  unfold zeroBandSample
  dsimp only
  rw [hp, hs]
  split <;> simp [hp, hn]

/-- A zero-band test changes no string that the fast checks test, and makes none of another. -/
theorem connected_zeroBandSample (i k : StringIdx) (s : State) :
    ((zeroBandSample k s).path i).connected = (s.path i).connected := by
  by_cases h : i = k
  · subst h
    unfold zeroBandSample
    dsimp only
    split
    · next hc => rcases hc.1 with h1 | h1 <;> simp [Path.connected, h1]
    · rfl
  · rw [path_zeroBandSample_ne h]

/-! ### The whole schedule -/

/-- What the parts of a tick leave to one string's record: what its own fast check does, where that is among them. -/
theorem adjOf_tickParts (c : Settings) (i : StringIdx) (l : List TickPart) (nd : l.Nodup) (s : State) :
    (l.foldl (takeTickPart c) s).adjOf i =
      if TickPart.fastCheck i ∈ l then (fastCheck c i s).adjOf i else s.adjOf i := by
  induction l generalizing s with
  | nil => simp
  | cons p l ih =>
    rw [List.nodup_cons] at nd
    rw [List.foldl_cons, ih nd.2]
    cases p with
    | arcContest => simp [takeTickPart, adjOf_fastCheck]
    | zeroBand k => simp [takeTickPart, adjOf_fastCheck, connected_zeroBandSample]
    | fastCheck k =>
      by_cases hk : i = k
      · subst hk
        simp [nd.1, takeTickPart]
      · have ha : (takeTickPart c s (.fastCheck k)).adjOf i = s.adjOf i := adjOf_fastCheck_ne hk s
        rw [adjOf_fastCheck, adjOf_fastCheck, ha]
        simp [takeTickPart, hk]

/-- What the parts of a tick leave to one string's path part: what its own zero-band test does, where that is among them. -/
theorem path_tickParts (c : Settings) (i : StringIdx) (l : List TickPart) (nd : l.Nodup) (s : State) :
    (l.foldl (takeTickPart c) s).path i =
      if TickPart.zeroBand i ∈ l then (zeroBandSample i s).path i else s.path i := by
  induction l generalizing s with
  | nil => simp
  | cons p l ih =>
    rw [List.nodup_cons] at nd
    rw [List.foldl_cons, ih nd.2]
    cases p with
    | arcContest =>
      simp only [takeTickPart, List.mem_cons, reduceCtorEq, false_or, arcTick_frame]
      rw [path_zeroBandSample_congr i (t := arcTick c s) (s := s) (by simp) (by simp) (by simp)]
    | fastCheck k =>
      simp only [takeTickPart, List.mem_cons, reduceCtorEq, false_or, fastCheck_frame]
      rw [path_zeroBandSample_congr i (t := fastCheck c k s) (s := s) (by simp) (by simp) (by simp)]
    | zeroBand k =>
      by_cases hk : i = k
      · subst hk
        simp [nd.1, takeTickPart]
      · have hp : (takeTickPart c s (.zeroBand k)).path i = s.path i := path_zeroBandSample_ne hk s
        rw [path_zeroBandSample_congr i hp (by simp) (by simp), hp]
        simp [hk]

/-! ### The alarm (R100) -/

/-- Opening a contest leaves the alarm. -/
@[simp] theorem openContest_alarm (c : Settings) (n : Nat) (p : Peak) (s : State) :
    (openContest c n p s).acu.alarmRun = s.acu.alarmRun ∧ (openContest c n p s).acu.runPeak = s.acu.runPeak
      ∧ (openContest c n p s).acu.rivals = s.acu.rivals := by
  unfold openContest setLatch
  split
  · split <;> simp
  · simp

/-- The alarm run and the run peak after the Arc contest unit has taken a tick. -/
theorem arcTick_alarm (c : Settings) (s : State) :
    (arcTick c s).acu.alarmRun = (s.acu.alarmTick c.arcThreshold s.sfe.peak).alarmRun
      ∧ (arcTick c s).acu.runPeak = (s.acu.alarmTick c.arcThreshold s.sfe.peak).runPeak := by
  unfold arcTick
  dsimp only
  split <;> (try split) <;> (try split) <;> simp

/-- The fast checks leave the Arc contest unit, and the unit takes the tick once. -/
theorem tickParts_alarm (c : Settings) (l : List TickPart) (nd : l.Nodup) (s : State) :
    (TickPart.arcContest ∉ l → (l.foldl (takeTickPart c) s).acu = s.acu) ∧
    (TickPart.arcContest ∈ l →
      (l.foldl (takeTickPart c) s).acu.alarmRun = (s.acu.alarmTick c.arcThreshold s.sfe.peak).alarmRun
        ∧ (l.foldl (takeTickPart c) s).acu.runPeak = (s.acu.alarmTick c.arcThreshold s.sfe.peak).runPeak) := by
  induction l generalizing s with
  | nil => simp
  | cons p l ih =>
    rw [List.nodup_cons] at nd
    have ih := ih nd.2
    rw [List.foldl_cons]
    cases p with
    | arcContest =>
      refine ⟨fun h => absurd List.mem_cons_self h, fun _ => ?_⟩
      rw [(ih (takeTickPart c s .arcContest)).1 nd.1]
      exact arcTick_alarm c s
    | fastCheck k => simpa [takeTickPart] using ih (fastCheck c k s)
    | zeroBand k => simpa [takeTickPart] using ih (zeroBandSample k s)
/-! ### What waits (assumption log 6) -/

/-- Nothing waits once everything has been taken. -/
@[simp] theorem arrivals_settled (s : State) : s.settled.arrivals = [] ∧ s.settled.demands = [] := by
  have take : (takeArrivals s).arrivals = [] := by
    unfold takeArrivals
    split <;> simp
  refine ⟨by simp [State.settled, take], ?_⟩
  simp only [State.settled, takeDemands]
  rw [foldl_keeps State.demands _ (by intros; simp)]
  simp

/-- With nothing on its way the arrivals change nothing. -/
theorem takeArrivals_of_nil {s : State} (h : s.arrivals = []) : takeArrivals s = s := by
  have hs : s.withArrivals [] = s := by rw [← h]; rfl
  unfold takeArrivals
  split
  · exact hs
  · rw [h, hs]; rfl

/-- With no demand on its way there is none to take. -/
theorem takeDemands_of_nil {s : State} (h : s.demands = []) : takeDemands s = s := by
  have hs : s.withDemands [] = s := by rw [← h]; rfl
  rw [takeDemands, h, hs]; rfl

/-- With nothing on its way a command finds the part as it is. -/
theorem awaited_of_nil {s : State} (ha : s.arrivals = []) (hd : s.demands = []) (dt : Nat) : s.awaited dt = s := by
  unfold State.awaited State.settled
  split
  · rfl
  · rw [takeArrivals_of_nil ha, takeDemands_of_nil hd]

/-- A command finds nothing on its way when time has passed before it. -/
theorem awaited_of_pos {dt : Nat} (h : 0 < dt) (s : State) : s.awaited dt = s.settled := by
  rw [State.awaited, if_neg (by omega)]

end Sys2Proof.Machine
end

