-- ==== Sys2Proof/Laws/Windows.lean ====
section
/-! SUPPORT. What a window close leaves to the accumulator, and the order of its medians (chapters 1 and 4). -/

namespace Sys2Proof.Machine

/-! ### The accumulator through the close (R13 to R16) -/

/-- The accumulator after a close is the reopened one. -/
theorem wac_closeWindow (c : Settings) (order : CloseOrder) (s : State) :
    (closeWindow c order s).wac = s.wac.closeWindow.openWindow := by
  simp only [closeWindow, judgeWindow, closeArrivals]
  split_ifs <;> simp [takeArrival]

/-- The box sum check leaves the means, the window number and the countdown. -/
@[simp] theorem boxChecked_means (b : Bool) (w : Wac) :
    (w.boxChecked b).means = w.means ∧ (w.boxChecked b).windowNumber = w.windowNumber ∧
      (w.boxChecked b).countdown = w.countdown ∧ (w.boxChecked b).closedThroughout = w.closedThroughout ∧
      (w.boxChecked b).endedClosed = w.endedClosed := by
  unfold Wac.boxChecked
  split_ifs <;> simp

/-- The means of a close. -/
theorem means_closeWindow (w : Wac) : w.closeWindow.means = Vector.ofFn fun i => roundDiv w.sums[i] 64 := by
  unfold Wac.closeWindow
  dsimp only
  split <;> simp

/-! ### Sorting (R66) -/

theorem insertInt_perm (x : Int) (l : List Int) : (insertInt x l).Perm (x :: l) := by
  induction l with
  | nil => exact .refl _
  | cons y l ih =>
    unfold insertInt
    split
    · exact .refl _
    · exact (ih.cons y).trans (.swap x y l)

/-- A sorted list is a rearrangement of the list. -/
theorem sortInts_perm (l : List Int) : (sortInts l).Perm l := by
  induction l with
  | nil => exact .refl _
  | cons x l ih => exact (insertInt_perm x _).trans (ih.cons x)

theorem insertInt_sorted (x : Int) (l : List Int) (h : l.Pairwise (· ≤ ·)) : (insertInt x l).Pairwise (· ≤ ·) := by
  induction l with
  | nil => simp [insertInt]
  | cons y l ih =>
    rw [List.pairwise_cons] at h
    unfold insertInt
    split
    · next hxy =>
      refine List.pairwise_cons.2 ⟨?_, List.pairwise_cons.2 h⟩
      intro z hz
      rcases List.mem_cons.1 hz with rfl | hz
      · exact hxy
      · exact hxy.trans (h.1 z hz)
    · next hxy =>
      refine List.pairwise_cons.2 ⟨?_, ih h.2⟩
      intro z hz
      rcases List.mem_cons.1 ((insertInt_perm x l).mem_iff.1 hz) with rfl | hz
      · omega
      · exact h.1 z hz

/-- A sorted list ascends. -/
theorem sortInts_sorted (l : List Int) : (sortInts l).Pairwise (· ≤ ·) := by
  induction l with
  | nil => exact .nil
  | cons x l ih => exact insertInt_sorted x _ ih

/-- The ascending rearrangement of a list is unique. -/
theorem sortInts_eq {l sorted : List Int} (h : sorted.Perm l) (h' : sorted.Pairwise (· ≤ ·)) : sortInts l = sorted :=
  List.Perm.eq_of_pairwise (fun _ _ _ _ => Int.le_antisymm) (sortInts_sorted l) h' ((sortInts_perm l).trans h.symm)

end Sys2Proof.Machine
end

