-- ==== Sys2Proof/Laws/Requests.lean ====
section
/-! SUPPORT. What carrying out a request does (chapter 10). -/

namespace Sys2Proof.Machine

/-- A request of the kind in force is carried out: it is taken from the list, checked, and answered. -/
theorem serve_of_kind {kind : RequestKind} {act : Settings → Request → State → Served} {c : Settings} {r : Request}
    {rest : List Request} {s : State} (hc : s.settings = some c) (hr : s.requests = r :: rest)
    (h : (r.body.getD 0 0).toNat = kind.code) :
    serve kind act s =
      offerReply r.source (replyBody r (checkedServe kind act c r (s.withRequests rest)))
        (checkedServe kind act c r (s.withRequests rest)).state := by
  simp only [serve, hc, hr, h, if_true]

/-- A request of another kind stays where it is. -/
theorem serve_of_other_kind {kind : RequestKind} {act : Settings → Request → State → Served} {r : Request} {rest : List Request}
    {s : State} (hr : s.requests = r :: rest) (h : (r.body.getD 0 0).toNat ≠ kind.code) : serve kind act s = s := by
  unfold serve
  rw [hr]
  split
  · next heq =>
    injection heq with h1 h2
    subst h1
    rw [if_neg h]
  · rfl
  · rfl

/-- A request that passes the checks of R164 gets its kind's own action. -/
theorem checkedServe_of_ok {kind : RequestKind} {act : Settings → Request → State → Served} {c : Settings} {r : Request}
    {s : State} (hp : kind.operatorOnly = false ∨ c.isOperator r.source = true) (hl : requestLengthOk kind.argLen r.body = true) :
    checkedServe kind act c r s = act c r s := by
  unfold checkedServe
  rw [if_neg (by rintro ⟨a, b⟩; rcases hp with h | h <;> simp_all), if_pos hl]

/-- An operator station. -/
theorem isOperator_iff {c : Settings} {n : Nat} : c.isOperator n = true ↔ n ≠ 0 ∧ n ∈ c.operators := by
  simp [Settings.isOperator]

/-! ### The strings a mask names -/

theorem mem_maskStrings {mask : Nat} {i : StringIdx} : i ∈ maskStrings mask ↔ mask.testBit i.val = true := by
  simp [maskStrings, maskHas, StringIdx.mem_all]

theorem nodup_maskStrings (mask : Nat) : (maskStrings mask).Nodup := StringIdx.nodup_all.filter _

/-! ### ISOLATE (R145) -/

/-- The MANUAL holds and the demands of an ISOLATE, in the parts of one string. -/
theorem isolateStrings_string (c : Settings) (l : List StringIdx) (nd : l.Nodup) (s : State) (i : StringIdx) :
    (isolateStrings c l s).path i = (if i ∈ l then (s.path i).demanded s.nowMs .manual c.rampSteps else s.path i) ∧
      (isolateStrings c l s).hold i =
        (let h := if i ∈ l then (s.hold i).addManual else s.hold i
          if i ∈ l ∧ (s.path i).state = .closed then { h with closedSince := none } else h) := by
  have hf := foldl_setHold_frame Hold.addManual l s
  have hh := hold_foldl_setHold Hold.addManual l nd s i
  dsimp only at hf
  have hs := foldl_openDemand .manual c.rampSteps l nd
    (withMaskChange (fun t => l.foldl (fun u j => u.setHold j (u.hold j).addManual) t) s) i
  unfold isolateStrings
  rw [hs.1, hs.2]
  simp only [withMaskChange_frame, hh]
  rw [hf]
  refine ⟨rfl, ?_⟩
  by_cases h : i ∈ l
  · by_cases h' : (s.path i).state = .closed <;> simp [h, h']
  · simp [h]

/-! ### RELEASE (R146, R166) -/

/-- A fold of close considerations leaves the strings outside its list. -/
theorem foldl_considerClose_other (l : List StringIdx) (s : State) (i : StringIdx) (h : i ∉ l) :
    (l.foldl (fun t j => considerClose j t) s).path i = s.path i ∧ (l.foldl (fun t j => considerClose j t) s).hold i = s.hold i := by
  induction l generalizing s with
  | nil => simp
  | cons a l ih =>
    rw [List.mem_cons, not_or] at h
    rw [List.foldl_cons]
    have first := considerClose_other h.1 s
    have others := ih (considerClose a s) h.2
    exact ⟨others.1.trans first.1, others.2.trans first.2⟩

/-- A close consideration leaves every part of a hold set but VOLTAGE_WAIT. -/
theorem hold_considerClose (i j : StringIdx) (s : State) :
    (considerClose i s).hold j = { s.hold j with voltageRecheck := ((considerClose i s).hold j).voltageRecheck } := by
  unfold considerClose closePermission
  split
  · rfl
  · split_ifs with h1 h2 h3
    · rw [hold_changePath]
      by_cases hj : j = i
      · subst hj
        simp [h1.2.1]
      · simp [hj]
    · rfl
    · by_cases hj : j = i
      · subst hj; simp
      · simp [State.hold_setHold_ne _ _ hj]
    · rfl

/-- A close consideration of another string leaves a path-change mark that is set. -/
theorem pathChanged_considerClose (i : StringIdx) (s : State) (h : s.wac.pathChanged = true) :
    (considerClose i s).wac.pathChanged = true := by
  unfold considerClose
  split
  · exact h
  · split_ifs with h1 h2
    · rw [closePermission_of_isolated h1.2.1 h1.2.2]; simp
    · simpa using h
    · exact h

/-- A fold of close considerations leaves a path-change mark that is set. -/
theorem pathChanged_foldl_considerClose (l : List StringIdx) (s : State) (h : s.wac.pathChanged = true) :
    (l.foldl (fun t j => considerClose j t) s).wac.pathChanged = true := by
  induction l generalizing s with
  | nil => exact h
  | cons a l ih => exact ih _ (pathChanged_considerClose a s h)

/-- The releases of one RELEASE, in the parts of one ISOLATED string among them. -/
theorem releaseStrings_string {c : Settings} {l : List StringIdx} (nd : l.Nodup) {s : State} {i : StringIdx}
    (hc : s.settings = some c) (hi : i ∈ l) (hp : c.strings[i].present = true) (hs : (s.path i).state = .isolated) :
    ((s.hold i).released.empty = false →
      (releaseStrings l s).path i = s.path i ∧ (releaseStrings l s).hold i = (s.hold i).released) ∧
    ((s.hold i).released.empty = true → voltageOk c i s = true →
      (releaseStrings l s).hold i = (s.hold i).released ∧ (releaseStrings l s).wac.pathChanged = true ∧
        (releaseStrings l s).path i = { s.path i with
          state := .making, deadline := some (s.nowMs + ms 30), isolationStart := none }) ∧
    ((s.hold i).released.empty = true → voltageOk c i s = false →
      (releaseStrings l s).path i = s.path i ∧
        (releaseStrings l s).hold i = { (s.hold i).released with voltageRecheck := some (s.nowMs + ms 60000) }) := by
  obtain ⟨before, after, rfl⟩ := List.append_of_mem hi
  have frame := foldl_setHold_frame Hold.released (before ++ i :: after) s
  have hold := hold_foldl_setHold Hold.released (before ++ i :: after) nd s i
  dsimp only at frame
  rw [if_pos hi] at hold
  have hb : i ∉ before := fun h => (List.nodup_append.1 nd).2.2 i h i List.mem_cons_self rfl
  have ha : i ∉ after := (List.nodup_cons.1 (List.nodup_append.1 nd).2.1).1
  set r := withMaskChange (fun t => (before ++ i :: after).foldl (fun u j => u.setHold j (u.hold j).released) t) s with hr
  set t := before.foldl (fun u j => considerClose j u) r with ht
  have keeps : t.settings = some c ∧ t.sfe = s.sfe ∧ t.nowMs = s.nowMs := by
    rw [ht]
    refine ⟨?_, ?_, ?_⟩
    · rw [foldl_keeps State.settings _ (by intros; simp), hr]
      simp only [withMaskChange_frame]
      rw [frame]; exact hc
    · rw [foldl_keeps State.sfe _ (by intros; simp), hr]
      simp only [withMaskChange_frame]
      rw [frame]; rfl
    · rw [foldl_keeps State.nowMs _ (by intros; simp), hr]
      simp only [withMaskChange_frame]
      rw [frame]; rfl
  have tp : t.path i = s.path i := by
    rw [ht, (foldl_considerClose_other before r i hb).1, hr]
    simp only [withMaskChange_frame]
    rw [frame]; rfl
  have th : t.hold i = (s.hold i).released := by
    rw [ht, (foldl_considerClose_other before r i hb).2, hr]
    simp only [withMaskChange_frame]
    exact hold
  have split : releaseStrings (before ++ i :: after) s = after.foldl (fun u j => considerClose j u) (considerClose i t) := by
    rw [releaseStrings, ← hr, List.foldl_append, List.foldl_cons]
  have others := foldl_considerClose_other after (considerClose i t) i ha
  have hv : voltageOk c i t = voltageOk c i s := by simp only [voltageOk, keeps.2.1]
  have hi' : (t.path i).state = .isolated := by rw [tp]; exact hs
  rw [split, others.1, others.2]
  refine ⟨fun he => ?_, fun he ok => ?_, fun he bad => ?_⟩
  · rw [considerClose_of_not (Or.inr (Or.inr (by rw [th]; exact he))), tp, th]
    exact ⟨rfl, rfl⟩
  · have he' : (t.hold i).empty = true := by rw [th]; exact he
    have := considerClose_of_voltageOk keeps.1 hp hi' he' (by rw [hv]; exact ok)
    refine ⟨?_, pathChanged_foldl_considerClose after _ (by rw [this]; simp), ?_⟩
    · rw [this, ← th]; simp
    · rw [this, ← tp, ← keeps.2.2]; simp
  · have he' : (t.hold i).empty = true := by rw [th]; exact he
    rw [considerClose_of_not_voltageOk keeps.1 hp hi' he' (by rw [hv]; exact bad), th, keeps.2.2]
    simp [tp]

end Sys2Proof.Machine
end

