-- ==== Sys2Proof/Laws/Reset.lean ====
section
/-! SUPPORT. What a reset and the settings load that follows it write (R174, R175, R149). -/

namespace Sys2Proof.Machine

/-- No write is in progress after a reset has cut it off. -/
@[simp] theorem cutOff_write (n : Nvs) : (cutOff n).write = none := by
  unfold cutOff
  split <;> simp_all

/-- Cutting off a write leaves all of the store unit but the pages, the write state and the model's counter. -/
@[simp] theorem cutOff_frame (n : Nvs) :
    (cutOff n).sealSet = n.sealSet ∧ (cutOff n).buffer = n.buffer ∧ (cutOff n).pendingMask = n.pendingMask ∧
      (cutOff n).offending = n.offending ∧ (cutOff n).lastReset = n.lastReset := by
  unfold cutOff
  split <;> simp

/-- Without a write in progress nothing is cut off. -/
theorem cutOff_of_none {n : Nvs} (h : n.write = none) : cutOff n = n := by
  rw [cutOff, h]

/-- The start-up holds touch the Hold manager and, where the lockout page is lost, the store unit. -/
@[simp] theorem startHolds_frame (s : State) :
      (startHolds s).timeUs = s.timeUs ∧ (startHolds s).settings = s.settings ∧ (startHolds s).sfe = s.sfe ∧
      (startHolds s).wac = s.wac ∧ (startHolds s).abu = s.abu ∧ (startHolds s).ptb = s.ptb ∧ (startHolds s).rfu = s.rfu ∧
      (startHolds s).adj = s.adj ∧ (startHolds s).acu = s.acu ∧ (startHolds s).paths = s.paths ∧
      (startHolds s).boxTrip = s.boxTrip ∧ (startHolds s).flg = s.flg ∧ (startHolds s).requests = s.requests ∧
      (startHolds s).svl = s.svl ∧ (startHolds s).arrivals = s.arrivals ∧ (startHolds s).demands = s.demands ∧
      (startHolds s).pending = s.pending ∧ (startHolds s).nowMs = s.nowMs ∧
      (startHolds s).seconds = s.seconds ∧ (∀ j, (startHolds s).present j = s.present j) ∧
      (∀ j, (startHolds s).path j = s.path j) ∧ (∀ j, (startHolds s).adjOf j = s.adjOf j) ∧
      (startHolds s).hld.shutdown = s.hld.shutdown ∧ (startHolds s).hld.input = s.hld.input := by
  unfold startHolds
  dsimp only
  split <;> simp

/-- What the settings load leaves alone. -/
@[simp] theorem settingsLoad_frame (s : State) :
      (settingsLoad s).timeUs = s.timeUs ∧ (settingsLoad s).abu = s.abu ∧ (settingsLoad s).ptb = s.ptb ∧
      (settingsLoad s).rfu = s.rfu ∧ (settingsLoad s).adj = s.adj ∧ (settingsLoad s).acu = s.acu ∧
      (settingsLoad s).paths = s.paths ∧ (settingsLoad s).boxTrip = s.boxTrip ∧ (settingsLoad s).flg = s.flg ∧
      (settingsLoad s).requests = s.requests ∧ (settingsLoad s).arrivals = s.arrivals ∧
      (settingsLoad s).demands = s.demands ∧ (settingsLoad s).svl = s.svl ∧ (settingsLoad s).pending = s.pending ∧
      (settingsLoad s).nowMs = s.nowMs ∧ (settingsLoad s).seconds = s.seconds ∧ (∀ j, (settingsLoad s).path j = s.path j) ∧
      (∀ j, (settingsLoad s).adjOf j = s.adjOf j) ∧
      (settingsLoad s).hld.shutdown = s.hld.shutdown ∧ (settingsLoad s).hld.input = s.hld.input ∧
      (settingsLoad s).sfe = Sfe.reset (trimsOf s.nvs.store) (totalTrimOf s.nvs.store) := by
  unfold settingsLoad
  dsimp only
  split <;> simp [loadTrims]

/-- A record that fails leaves the station without settings and without holds. -/
theorem settingsLoad_of_offending {s : State} (h : offendingField s.nvs.store ≠ 0) :
    settingsLoad s = (loadTrims s).withNvs { s.nvs with offending := offendingField s.nvs.store } := by
  unfold settingsLoad
  dsimp only
  rw [if_neg h]

/-- A record that passes is latched, and the first window opens. -/
theorem settingsLoad_of_good {s : State} (h : offendingField s.nvs.store = 0) :
    settingsLoad s = startHolds ((((loadTrims s).withNvs { s.nvs with offending := 0 }).withSettings
      (some (settingsOf s.nvs.store))).withWac { s.wac with countdown := some ((settingsOf s.nvs.store).sampleInterval / 10) }) := by
  unfold settingsLoad
  dsimp only
  rw [if_pos h, h]
  rfl

/-- The holds of a good lockout page. -/
theorem hold_startHolds_of_good {s : State} (h : lockoutPageGood s.nvs.store = true) (i : StringIdx) :
    (startHolds s).hold i =
      if s.present i = true then startHold s.nvs.store s.hld.shutdown s.nowMs i (s.hold i) else s.hold i := by
  unfold startHolds
  dsimp only
  rw [if_pos h]
  simp [forPresent, State.hold, State.withHld]

/-- The holds of a lockout page that is not good: LOCKOUT on every present string. -/
theorem hold_startHolds_of_lost {s : State} (h : lockoutPageGood s.nvs.store = false) (i : StringIdx) :
    (startHolds s).hold i =
      if s.present i = true then (startHold s.nvs.store s.hld.shutdown s.nowMs i (s.hold i)).addLockout else s.hold i := by
  have hs : ∀ x : Hld, (s.withHld x).present i = s.present i := fun _ => rfl
  unfold startHolds
  dsimp only
  rw [if_neg (by simp [h])]
  simp only [withMaskChange_frame, forPresent, State.hold, State.withHld_hld, State.withHld_withHld, hs, Fin.getElem_fin,
    Vector.getElem_ofFn, Fin.eta]
  by_cases hp : s.present i = true
  · rw [if_pos hp, if_pos hp, if_pos hp]
  · rw [if_neg hp, if_neg hp, if_neg hp]

/-- What a reset and its load leave of the state before it: the queue, and what the reset itself hands on. -/
@[simp] theorem resetPart_frame (k : ResetKind) (b : Bool) (f : Flg) (s : State) :
    (resetPart k b f s).pending = s.pending ∧ (resetPart k b f s).flg = f ∧ (resetPart k b f s).timeUs = 0 ∧
      (resetPart k b f s).abu = Abu.reset s.abu.draws ∧ (resetPart k b f s).ptb = Ptb.reset ∧ (resetPart k b f s).rfu = Rfu.reset ∧
      (resetPart k b f s).adj = Vector.replicate 12 AdjRecord.reset ∧ (resetPart k b f s).acu = Acu.reset ∧
      (resetPart k b f s).paths = Vector.replicate 12 Path.reset ∧ (resetPart k b f s).boxTrip = false ∧
      (resetPart k b f s).requests = [] ∧ (resetPart k b f s).svl = Svl.reset ∧ (resetPart k b f s).hld.shutdown = b ∧
      (resetPart k b f s).hld.input = b ∧ (resetPart k b f s).arrivals = [] ∧ (resetPart k b f s).demands = [] := by
  unfold resetPart
  simp [blankReset]

end Sys2Proof.Machine
end

