-- ==== Sys2Proof/Laws/Service.lean ====
section
/-! SUPPORT. The bytes of the service link (R177 to R179). -/

namespace Sys2Proof.Machine

/-- A byte that comes in an open session between two commands, within 10 s of the byte before, is a command byte. -/
theorem linkByte_of_open {s : State} (b : Byte) (ho : s.svl.session = .opened) (hr : s.svl.receiving = [])
    (hk : s.svl.skipping = false) (ht : since s.nowMs s.svl.lastByte < 10000) :
    linkByte s b = commandByte b (s.withSvl { s.svl with lastByte := s.nowMs }) := by
  have hs : ({ (settleSilence s).svl with lastByte := (settleSilence s).nowMs } : Svl) = { s.svl with lastByte := s.nowMs } ∧
      settleSilence s = s.withSvl (settleSilence s).svl := by
    have he : sessionExpired s = false := by simp [sessionExpired, Svl.silentFor, ht]
    unfold settleSilence
    rw [he]
    by_cases h : s.svl.silentFor 100 s.nowMs = true
    · simp only [h, if_true, Bool.false_eq_true, if_false]
      refine ⟨?_, rfl⟩
      simp only [State.withSvl_svl, State.withSvl_nowMs, Svl.dropCommand, hr, hk]
    · simp only [h, Bool.false_eq_true, if_false, true_and]
      rfl
  unfold linkByte
  dsimp only
  rw [hs.1, hs.2]
  simp only [sessionByte, State.withSvl_svl, ho, openByte, hk, hr, Bool.false_eq_true, if_false]
  rfl

/-- A byte at the very moment of the byte before, in an open session: nothing has fallen silent. -/
theorem linkByte_at_once {s : State} (b : Byte) (ho : s.svl.session = .opened) (ht : s.svl.lastByte = s.nowMs) :
    linkByte s b = openByte b s := by
  have hs : settleSilence s = s := by
    have he : sessionExpired s = false := by simp [sessionExpired, Svl.silentFor, ht, since]
    have hn : s.svl.silentFor 100 s.nowMs = false := by simp [Svl.silentFor, ht, since]
    simp [settleSilence, he, hn]
  have hw : s.withSvl { s.svl with lastByte := s.nowMs } = s := by rw [← ht]; rfl
  unfold linkByte
  dsimp only
  rw [hs, hw, sessionByte, ho]

/-- The argument bytes of a LOAD_BUFFER but for the last are kept. -/
theorem linkBytes_keep (args pre : List Byte) (s : State) (ho : s.svl.session = .opened) (ht : s.svl.lastByte = s.nowMs)
    (hk : s.svl.skipping = false) (hr : s.svl.receiving = 0x43 :: pre) (hl : pre.length + args.length ≤ 64) :
    linkBytes args s = s.withSvl { s.svl with receiving := 0x43 :: (pre ++ args) } := by
  induction args generalizing pre s with
  | nil =>
    rw [List.append_nil, ← hr]
    rfl
  | cons b l ih =>
    rw [List.length_cons] at hl
    have hb : linkByte s b = keepReceiving (0x43 :: (pre ++ [b])) s := by
      rw [linkByte_at_once b ho ht, openByte, hk, hr]
      simp only [Bool.false_eq_true, if_false, argumentByte]
      rw [if_neg (by decide), if_neg (by decide), if_pos (by omega)]
    have hf : linkBytes (b :: l) s = linkBytes l (linkByte s b) := rfl
    rw [hf, hb, ih (pre ++ [b]) (keepReceiving (0x43 :: (pre ++ [b])) s) ho ht hk rfl (by simp; omega)]
    simp only [keepReceiving, State.withSvl_svl, State.withSvl_withSvl, List.append_assoc, List.cons_append, List.nil_append]

/-- A whole LOAD_BUFFER in an open session is carried out at its last byte. -/
theorem linkBytes_loadBuffer {s : State} (page : Byte) (content : List Byte) (hc : content.length = 64)
    (ho : s.svl.session = .opened) (hr : s.svl.receiving = []) (hk : s.svl.skipping = false)
    (ht : since s.nowMs s.svl.lastByte < 10000) :
    linkBytes (0x43 :: page :: content) s = loadBuffer page content (s.withSvl { s.svl with lastByte := s.nowMs }) := by
  have hcmd : linkByte s 0x43 = keepReceiving [0x43] (s.withSvl { s.svl with lastByte := s.nowMs }) := by
    rw [linkByte_of_open _ ho hr hk ht]
    rfl
  rcases List.eq_nil_or_concat content with h | ⟨l, b, h⟩
  · subst h
    simp at hc
  · rw [List.concat_eq_append] at h
    subst h
    have hl : l.length = 63 := by simpa using hc
    have hf : linkBytes (0x43 :: page :: (l ++ [b])) s = linkByte (linkBytes (page :: l) (linkByte s 0x43)) b := by
      simp [linkBytes, List.foldl_append]
    rw [hf, hcmd, linkBytes_keep (page :: l) [] (keepReceiving [0x43] (s.withSvl { s.svl with lastByte := s.nowMs })) ho rfl hk rfl
      (by simp [hl]), linkByte_at_once b (by exact ho) rfl]
    simp only [openByte, State.withSvl_svl, hk, keepReceiving, Bool.false_eq_true, if_false, argumentByte]
    rw [if_neg (by decide), if_neg (by decide), if_neg (by simp [hl])]
    simp [hr]

/-- A page's worth of 64 bytes is those bytes. -/
theorem pageBytes_of_length {l : List Byte} (h : l.length = 64) : pageBytes l = l := by
  apply List.ext_getElem
  · simp [pageBytes, h]
  · intro n h1 h2
    simp [pageBytes, List.getD_eq_getElem?_getD, List.getElem?_eq_getElem h2]

end Sys2Proof.Machine
end

