-- ==== Sys2Proof/Tests/Slice0.lean ====
section
/-! SUPPORT. Tests of the model: well-formedness, one step of each family of commands on a small state (the numbers are those of the
spec's worked tables where it has one), and for each obligation with hypotheses a state that meets them. -/

namespace Sys2Proof.Tests

set_option Elab.async false

open Sys2Proof.Machine

/-! ### Small states -/

/-- Station 4 on feeder 3 with mostly default settings; string 4 reports only, string 8 is in group 15, string 12 is not present. -/
def cfg : Settings :=
  { station := 4, feeder := 3, sampleInterval := 150, guardLow := 150, guardHigh := 150, persistence := 6, minContributors := 3
    darkFloor := 50, reverseLimit := 100, overcurrentLimit := 1500, arcThreshold := 400, contestWindow := 100, rampSteps := 8
    voltageWindow := 80, retryHold := 10, retryBudget := 3, goodRun := 4, operators := [60, 0, 20, 9]
    strings := ((Vector.replicate 12 ⟨true, 2, 1000, .isolate⟩).set 3 ⟨true, 2, 1100, .reportOnly⟩).set 7
      ⟨true, 15, 1000, .isolate⟩ |>.set 11 ⟨false, 0, 0, .isolate⟩ }

/-- Station 4 in RUN, 20 ms up, every string ISOLATED and without holds. -/
def run : State := { State.reset with timeUs := 20000, settings := some cfg }

/-- Nothing is asked of a refusal or a fault here: the state after an outcome, or the reset state. -/
def after : Host.Outcome State Fault Refusal → State
  | .next s => s
  | .fault _ => State.reset
  | .refused _ => State.reset

/-- A path part in CLOSED. -/
def closedPath : Path := ⟨.closed, 255, none, none, none, none, none⟩

/-- A path part in OPENING of an 8-step ramp. -/
def openingPath (level left : Nat) : Path := ⟨.opening, level, some 8, some left, some 22, some (.fault .lowOutput), some 20⟩

/-- A path part in CLOSING of an 8-step ramp. -/
def closingPath (level left : Nat) : Path := ⟨.closing, level, some 8, some left, some 22, some .startup, none⟩

/-- A path part at drive level 0, with a phase deadline. -/
def lowPath (state : PathState) (deadline : Option Ms) : Path := ⟨state, 0, none, none, deadline, some .manual, some 20⟩

/-- The state with string 3 in a path state. -/
def with3 (p : Path) : State := run.setPath 2 p

/-- A set of raw codes: one current code for all channels, the box arc score, and a share for string 3. -/
def raw (current : BitVec 12) (score : BitVec 10) : RawInputs :=
  { currents := Vector.replicate 12 current, total := 2048, voltages := Vector.replicate 12 2700, bus := 2700, score
    shares := (Vector.replicate 12 5).set 2 9, shutdown := false }

/-- A tick whose named parts are taken first, in their order, and nothing waits. -/
def first (parts : List TickPart) : TickOrder := ⟨parts, [], false⟩

/-- A tick some of whose parts are late. -/
def late (parts : List TickPart) : TickOrder := ⟨[], parts, false⟩

/-- A close whose verdict set is taken in the step, after the Hold manager's part of it. -/
def atOnce : CloseOrder := ⟨true, false, false⟩

/-- A record of a LOW_OUTPUT fault on string 3. -/
def record (seq : Nat) (ackBy : Option Nat) : FaultRecord := ⟨seq, 2, .lowOutput, 0, -200, some 800, some 5, .isolated, ackBy, some 20⟩

/-! ### Well-formedness: an ill-formed command for each check -/

theorem test_wellFormed_refuses_a_part_named_twice :
    Instr.wellFormed (.protectionTick 10000 (raw 2048 0) (first [.arcContest, .fastCheck 2, .arcContest])) = false ∧
      Instr.wellFormed (.protectionTick 10000 (raw 2048 0) (late [.zeroBand 2, .zeroBand 2])) = false := by decide

theorem test_wellFormed_refuses_a_rival_that_is_no_station :
    Instr.wellFormed (.rivalExpiry 0 0) = false ∧ Instr.wellFormed (.rivalExpiry 0 63) = false := by decide

theorem test_wellFormed_refuses_too_many_arguments :
    Instr.wellFormed (.enter 0 [0x5C, 0, 0, 0]) = false ∧ Instr.wellFormed (.readPage 0 [0, 0]) = false ∧
      Instr.wellFormed (.loadBuffer 0 (List.replicate 66 0)) = false := by decide

theorem test_wellFormed_refuses_a_known_byte_as_unknown : Instr.wellFormed (.unknownCommandByte 0 0x45) = false := by decide

theorem test_wellFormed_takes_the_limits :
    Instr.wellFormed (.rivalExpiry 0 62) = true ∧ Instr.wellFormed (.enter 0 [0x5C, 0, 0]) = true ∧
      Instr.wellFormed (.loadBuffer 0 (List.replicate 65 0)) = true ∧ Instr.wellFormed (.unknownCommandByte 0 0x49) = true := by
  decide

theorem test_decodeTableWord_answers_none : decodeTableWord 8 0x41 = none ∧ run.withFetchWord 8 0x41 = run := ⟨rfl, rfl⟩

/-! ### Shared operations -/

/-- The check value of the digits 1 to 9 under the polynomial 0x1021 from 0xFFFF (R23). -/
theorem test_crc16 : crc16 [0x31, 0x32, 0x33, 0x34, 0x35, 0x36, 0x37, 0x38, 0x39] = 0x29B1 := by decide +kernel

/-- The worked calibration of section 1.2. -/
theorem test_calibrateCurrent :
    calibrateCurrent ⟨5, 1010, false⟩ 2870 = 805 ∧ calibrateCurrent ⟨5, 1010, false⟩ 1900 = -150 ∧
      calibrateCurrent ⟨5, 1010, false⟩ 4095 = 2000 ∧ calibrateCurrent ⟨5, 1010, false⟩ 2048 = -4 ∧
      calibrateVoltage 2700 = 1582 := by decide

/-- The worked window means of section 1.5. -/
theorem test_roundDiv :
    roundDiv 51650 64 = 807 ∧ roundDiv 51680 64 = 808 ∧ roundDiv (-51680) 64 = -808 ∧ roundDiv 95 64 = 1 ∧ roundDiv (-32) 64 = -1 ∧
      roundDiv (890 * 1000) 1100 = 809 := by decide

/-- The worked tolerances of section 1.6. -/
theorem test_boxTolerance : boxTolerance 9655 = 289 ∧ boxTolerance 10010 = 300 ∧ boxTolerance (-100) = 20 := by decide

/-- The worked medians and deviations of chapter 4. -/
theorem test_median_and_deviation :
    median [812, 806, 809, 798, 820] = 809 ∧ median [33, 40, 41, 38] = 39 ∧ median [33, 40] = 36 ∧ deviationOf 655 809 = -190 ∧
      deviationOf 806 809 = -3 ∧ deviationOf (-150) 809 = -1000 ∧ deviationOf 2000 60 = 1000 ∧ deviationOf 0 50 = -1000 := by decide

/-- The worked group records of section 4.10. -/
theorem test_groupRecord :
    groupRecordOfList 3 50 [812, 806, 809, 798, 820] = ⟨5, some 809, false⟩ ∧ groupRecordOfList 3 50 [300, 310] = ⟨2, none, false⟩ ∧
      groupRecordOfList 3 50 [33, 40, 41, 38] = ⟨4, some 39, true⟩ := by decide

/-- Steps remaining of ramps down (R119). -/
theorem test_rampDownSteps :
    rampDownSteps 255 8 = 8 ∧ rampDownSteps 131 8 = 5 ∧ rampDownSteps 0 8 = 1 ∧ rampDownSteps 31 8 = 1 ∧ rampDownSteps 32 8 = 2 := by
  decide

/-- A write of the erased byte removes the entry, and the form stays canonical. -/
theorem test_memory :
    Memory.write (Memory.write [] 7 1) 3 2 = [(3, 2), (7, 1)] ∧ Memory.write [(3, 2), (7, 1)] 3 0xFF = [(7, 1)] ∧
      Memory.read [(3, 2), (7, 1)] 5 = 0xFF ∧ Memory.wf [(3, 2), (7, 1)] = true ∧ Memory.wf [(7, 1), (3, 2)] = false ∧
      Memory.wf [(3, 0xFF)] = false := by decide

/-! ### Commands of the sequencers -/

/-- The first, the second and the last ramp step of the worked isolation (section 7.13). -/
theorem test_openingStep :
    ((after (exec (.openingStep 2000 2) (with3 (openingPath 255 8)))).path 2 = { openingPath 224 7 with deadline := some 24 }) ∧
      ((after (exec (.openingStep 2000 2) (with3 (openingPath 38 1)))).path 2
        = ⟨.confirming, 0, none, none, some 72, some (.fault .lowOutput), some 20⟩) := by decide +kernel

/-- A step that is not due changes nothing but the uptime. -/
theorem test_openingStep_not_due : (after (exec (.openingStep 1999 2) (with3 (openingPath 255 8)))).paths
    = (with3 (openingPath 255 8)).paths := by decide +kernel

/-- A switch that does not turn off: SWITCH_STUCK, the box trip line, LOCKOUT and switch suspect (section 7.13). -/
theorem test_confirmDeadline :
    let t := after (exec (.confirmDeadline 0 2) ({ with3 (lowPath .confirming (some 20)) with flg := ⟨[record 1 none], 2, 0⟩ }))
    (t.path 2).state = .stuck ∧ t.boxTrip = true ∧ (t.hold 2).lockout = true ∧ (t.hold 2).suspect = true
      ∧ t.flg.records.map FaultRecord.outcome = [.isolationFailed, .isolationFailed] ∧ t.flg.nextSeq = 3 := by decide +kernel

theorem test_partingDeadline :
    ((after (exec (.partingDeadline 0 2) (with3 (lowPath .parting (some 20))))).path 2).state = .making ∧
      ((after (exec (.partingDeadline 0 11) (run.setPath 11 (lowPath .parting (some 20))))).path 11).state = .isolated := by decide +kernel

theorem test_makingDeadline : (after (exec (.makingDeadline 0 2) (with3 { lowPath .making (some 20) with isolationStart := none }))).path 2
    = ⟨.closing, 0, some 8, some 8, some 22, some .manual, none⟩ := by decide +kernel

theorem test_closingStep :
    (after (exec (.closingStep 2000 2) (with3 (closingPath 0 8)))).path 2 = { closingPath 31 7 with deadline := some 24 } ∧
      (after (exec (.closingStep 2000 2) (with3 (closingPath 217 1)))).path 2 = closedPath ∧
      ((after (exec (.closingStep 2000 2) (with3 (closingPath 217 1)))).hold 2).closedSince = some 22 := by decide +kernel

/-! ### Commands of the holds and the shutdown line -/

theorem test_shutdownAssertion :
    let t := after (exec (.shutdownAssertion 9000) { with3 (openingPath 131 4) with hld := { run.hld with input := true } })
    t.path 2 = { openingPath 131 1 with stepCount := some 1 } ∧ (t.hold 2).shutdown = true ∧ (t.hold 11).shutdown = false
      ∧ t.hld.shutdown = true := by decide +kernel

theorem test_shutdownDeassertion :
    let t := after (exec (.shutdownDeassertion 0) { run with hld := { run.hld with shutdown := true } })
    (t.hold 2).startupUntil = some 9020 ∧ (t.hold 11).startupUntil = none ∧ t.hld.shutdown = false := by decide +kernel

/-- The input is read on a tick; an assertion that no tick has read does nothing (R147). -/
theorem test_shutdown_is_read_on_a_tick :
    let t := after (exec (.protectionTick 0 { raw 2048 0 with shutdown := true } (first [])) run)
    t.hld.input = true ∧ t.hld.shutdown = false ∧ (after (exec (.shutdownAssertion 0) t)).hld.shutdown = true
      ∧ after (exec (.shutdownAssertion 0) run) = run := by decide +kernel

theorem test_retryEnd :
    ((after (exec (.retryEnd 0 2) (run.setHold 2 { Hold.reset with retryUntil := some 20 }))).path 2).state = .making ∧
      ((after (exec (.retryEnd 0 2) (run.setHold 2 { Hold.reset with retryUntil := some 20, lockout := true }))).path 2).state
        = .isolated := by decide +kernel

theorem test_startupEnd : (after (exec (.startupEnd 0 2) ({ run with sfe := { run.sfe with bus := 81 } }.setHold 2
    { Hold.reset with startupUntil := some 20 }))).hold 2 = { Hold.reset with voltageRecheck := some 60020 } := by decide +kernel

theorem test_voltageRecheck :
    ((after (exec (.voltageRecheck 0 2) (run.setHold 2 { Hold.reset with voltageRecheck := some 20 }))).path 2).state = .making ∧
      ((after (exec (.voltageRecheck 0 2) ({ run with sfe := { run.sfe with bus := 81 } }.setHold 2
        { Hold.reset with voltageRecheck := some 20 }))).hold 2).voltageRecheck = some 60020 := by decide +kernel

/-! ### Ticks and windows -/

/-- A tick that sends a string from CONFIRMING to PARTING, and one that opens a string on its third reverse sample. -/
theorem test_protectionTick :
    ((after (exec (.protectionTick 0 (raw 2068 0) (first [])) (with3 (lowPath .confirming (some 60))))).path 2
        = lowPath .parting (some 50)) ∧
      ((after (exec (.protectionTick 0 (raw 1948 0) (first [.arcContest]))
        ((with3 closedPath).setAdj 2 ⟨4, 2, some (-120), 0, none⟩))).path 2).state = .opening ∧
      (after (exec (.protectionTick 0 (raw 1948 0) (first []))
        ((with3 closedPath).setAdj 2 ⟨4, 2, some (-120), 0, none⟩))).flg.records.map FaultRecord.detail = [-120] := by decide +kernel

/-- A loud third tick opens a contest with the string of the greatest share among those CLOSED. -/
theorem test_protectionTick_contest :
    (after (exec (.protectionTick 0 (raw 2048 401) (first [])) { with3 closedPath with
      acu := { Acu.reset with alarmRun := 2, runPeak := some ⟨500, Vector.replicate 12 1⟩ } })).acu.contest
        = .contest 1 ⟨500, Vector.replicate 12 1⟩ 2 120 none := by decide +kernel

theorem test_windowSample :
    let t := after (exec (.windowSample 0) { with3 closedPath with
      sfe := { run.sfe with currents := Vector.replicate 12 700, total := 8400 }, wac := { run.wac with sampleDue := true } })
    t.wac.count = 1 ∧ t.wac.sums[2] = 700 ∧ t.wac.boxSum = 8400 ∧ t.wac.closedThroughout[2] = true
      ∧ t.wac.closedThroughout[3] = false ∧ t.wac.sampleDue = false := by decide +kernel

/-- Group 2 of the worked window 41, on strings 1 to 4, with string 3 at strike 2. -/
theorem test_windowClose :
    let sums : PerString Int := ((((Vector.replicate 12 0).set 0 (812 * 64)).set 1 (806 * 64)).set 2 (655 * 64)).set 3 (890 * 64)
    let closed := ((((Vector.replicate 12 false).set 0 true).set 1 true).set 2 true).set 3 true
    let w : Wac := { run.wac with
      sums := sums, count := 64, endedChanged := true, endedClosed := closed, windowNumber := 40 }
    let t := after (exec (.windowClose 0 atOnce) ({ run with wac := w }.setAdj 2 ⟨2, 0, none, 0, none⟩))
    t.rfu.strings[2] = ⟨655, some .full, some (-190)⟩ ∧ t.rfu.groups[2] = some ⟨3, some 809, false⟩ ∧ (t.adjOf 2).strikes = 3
      ∧ t.rfu.strings[11] = ⟨0, none, none⟩ ∧ (t.rfu.strings[7]).verdict = some .held ∧ t.wac.windowNumber = 41 ∧ t.wac.count = 0
      ∧ t.abu.queue.map TxEntry.body = [[0, 41, 1, 2, 3, 3, 3, 0x29]] := by decide +kernel

/-- A part of a tick that is late waits, and so do the open demands of a tick that says so (R7). -/
theorem test_protectionTick_late :
    let s := (with3 closedPath).setAdj 2 ⟨4, 2, some (-120), 0, none⟩
    let t := after (exec (.protectionTick 0 (raw 1948 0) (late [.fastCheck 2])) s)
    let u := after (exec (.protectionTick 0 (raw 1948 0) ⟨[], [], true⟩) s)
    t.arrivals = [.tick (.fastCheck 2)] ∧ t.adjOf 2 = s.adjOf 2 ∧ (t.settled.path 2).state = .opening
      ∧ u.demands = [⟨2, .fault .reverseCurrent, 8⟩] ∧ (u.path 2).state = .closed ∧ (u.settled.path 2).state = .opening := by
  decide +kernel

/-- Window 45 of the worked sequence of R95: string 3 with strike count 5 and a reverse run of 2, five contributors at 800. -/
def window45 : State :=
  let paths : PerString Path := Vector.ofFn fun i => if i.val ≤ 6 then closedPath else Path.reset
  let wac : Wac := { run.wac with
    count := 64, sums := (Vector.replicate 12 (800 * 64)).set 2 (640 * 64), endedChanged := true, windowNumber := 44
    endedClosed := Vector.ofFn fun i => decide (i.val ≤ 6 ∧ i ≠ 3) }
  ({ run with paths := paths, wac := wac, flg := ⟨[], 118, 0⟩, sfe := { run.sfe with currents := Vector.replicate 12 (-230) } }).setAdj 2
    ⟨5, 2, some (-220), 0, none⟩

/-- The records of a state, by number, cause and detail. -/
def declared (s : State) : List (Nat × Cause × Int) := s.flg.records.map fun r => (r.seq, r.cause, r.detail)

/-- The worked sequence of R95 in both orders: the fast check first, whose demand is still on its way at the close, and the verdict set
first, with the fast check late. -/
theorem test_windowClose_both_orders :
    let s := (fastCheck cfg 2 window45)
    let t := (after (exec (.windowClose 0 ⟨true, false, true⟩) s)).settled
    let late := window45.withArrivals [.tick (.fastCheck 2)]
    let u := (after (exec (.windowClose 0 ⟨true, false, true⟩) late)).settled
    declared t = [(118, .reverseCurrent, -230), (119, .lowOutput, -200)] ∧ (t.path 2).reason = some (.fault .reverseCurrent)
      ∧ declared u = [(118, .lowOutput, -200), (119, .reverseCurrent, -230)] ∧ (u.path 2).reason = some (.fault .lowOutput)
      ∧ (t.adjOf 2).strikes = 0 ∧ (u.adjOf 2) = ⟨0, 0, none, 0, none⟩ ∧ (t.hold 2).lockout = true ∧ (u.hold 2).lockout = true
      ∧ (t.hold 2).retryCount = 1 ∧ (u.hold 2).retryCount = 1 := by decide +kernel

/-- A string that has left CLOSED after its 64th sample is still struck by the verdict set (R85). -/
theorem test_windowClose_after_leaving_closed :
    let s := openDemand 2 (.fault .arc) 1 window45
    let t := after (exec (.windowClose 0 atOnce) s)
    (s.path 2).state = .opening ∧ t.rfu.strings[(2 : StringIdx)].verdict = some .full
      ∧ declared t = [(118, .lowOutput, -200)] ∧ t.wac.pathChanged = true ∧ t.wac.endedChanged = true := by decide +kernel

/-- The 64th sample ends the window: its flags and its mark stand beside those of the new one (R12, R14). -/
theorem test_windowSample_last :
    let s := { with3 closedPath with wac := { run.wac with sampleDue := true, count := 63, pathChanged := true } }
    let t := after (exec (.windowSample 0) s)
    t.wac.endedClosed[(2 : StringIdx)] = true ∧ t.wac.endedClosed[(3 : StringIdx)] = false ∧ t.wac.endedChanged = true
      ∧ t.wac.closedThroughout[(3 : StringIdx)] = true ∧ t.wac.pathChanged = false := by decide +kernel

/-! ### The arc contest -/

/-- A run with a contest record. -/
def inContest (contest : Contest) : State := { with3 closedPath with acu := { Acu.reset with contest := contest } }

/-- The own peak of the tests below. -/
def peak : Peak := ⟨500, Vector.replicate 12 1⟩

/-- An ARC_CLAIM of station 5 with score 501. -/
def rivalClaim : Telegram := ⟨0x2A, 5, 0, 3, [1, 1, 1, 0xF5, 2]⟩

theorem test_contestWindowEnd :
    (after (exec (.contestWindowEnd ⟨0, false⟩) (inContest (.contest 1 peak 2 20 (some ⟨5, 501⟩))))).acu.contest
        = .yielded 1 (some 2020) none ∧
      (let t := after (exec (.contestWindowEnd ⟨0, false⟩) (inContest (.contest 1 peak 2 20 (some ⟨5, 500⟩))));
        t.acu.contest = .settle 520 ∧ (t.path 2).stepsLeft = some 1 ∧ t.flg.records.map FaultRecord.detail = [500]
          ∧ t.abu.queue.map TxEntry.body = [[1, 2, 1, 0xF4, 3]]) := by decide +kernel

/-- With no string left to open the latch is set and the box trip line asserted. -/
theorem test_contestWindowEnd_without_string :
    let t := after (exec (.contestWindowEnd ⟨0, false⟩) { run with acu := { Acu.reset with contest := .contest 2 peak 2 20 none } })
    t.acu.latch = true ∧ t.boxTrip = true ∧ t.acu.contest = .settle 520 := by decide +kernel

theorem test_resolutionDeadline :
    (after (exec (.resolutionDeadline 0) (inContest (.yielded 1 (some 20) none)))).acu.contest = .yielded 1 none none ∧
      (after (exec (.resolutionDeadline 0) { inContest (.yielded 1 (some 20) none) with
        sfe := { run.sfe with score := 401 } })).acu.contest = .contest 2 ⟨401, run.sfe.shares⟩ 2 120 none := by decide +kernel

theorem test_quietPeriodEnd :
    (after (exec (.quietPeriodEnd 499999) (inContest (.yielded 1 none (some 20))))).acu.contest = .yielded 1 none (some 20) ∧
      (after (exec (.quietPeriodEnd 500000) (inContest (.yielded 1 none (some 20))))).acu.contest = .idle := by decide +kernel

theorem test_settleEnd : (after (exec (.settleEnd 500000) (inContest (.settle 520)))).acu.contest = .idle := by decide +kernel

theorem test_rivalExpiry :
    let s := { run with acu := { Acu.reset with rivals := [⟨5, 501, 20⟩, ⟨6, 1, 20⟩] } }
    (after (exec (.rivalExpiry 100000 5) s)).acu.rivals = [⟨6, 1, 20⟩] ∧ (after (exec (.rivalExpiry 99999 5) s)).acu.rivals.length = 2 := by
  decide +kernel

theorem test_takeClaim :
    let t := takeClaim cfg rivalClaim (inContest (.contest 1 peak 2 120 none))
    t.acu.rivals = [⟨5, 501, 20⟩] ∧ t.acu.contest = .contest 1 peak 2 120 (some ⟨5, 501⟩) := by decide +kernel

/-! ### The array bus -/

/-- The bytes of an ARC_CLAIM of station 5 for all stations, with its check value. -/
def claimBytes : List Byte := [0x2A, 5, 0, 3, 5, 1, 1, 1, 0xF5, 2] ++ be16 (crc16 [0x2A, 5, 0, 3, 5, 1, 1, 1, 0xF5, 2]).toNat

/-- A run whose receiver has taken bytes. -/
def taking (rx : RxState) (taken : List Byte) : State := { run with abu := { run.abu with rx := rx, taken := taken } }

theorem test_byteArrival :
    (after (exec (.byteArrival 160 0x2A false) (taking .ready []))).abu.taken = [0x2A] ∧
      (after (exec (.byteArrival 160 63 false) (taking .header [0x2A]))).abu.tally.headerIgnored = 1 := by decide +kernel

theorem test_telegramComplete :
    let s := taking .body (claimBytes.take 11)
    let t := after (exec (.telegramComplete 160 (claimBytes.getD 11 0)) s)
    t.abu.tally.valid = 1 ∧ t.acu.rivals = [⟨5, 501, 20⟩] ∧ t.abu.rx = .gapWait
      ∧ (after (exec (.telegramComplete 160 0) s)).abu.tally.crcDiscard = 1 := by decide +kernel

/-- A telegram under the own station number: SILENT. -/
theorem test_telegramComplete_duplicate :
    let bytes : List Byte := [0x32, 4, 9, 3, 0]
    let check := be16 (crc16 bytes).toNat
    (after (exec (.telegramComplete 160 (check.getD 1 0)) (taking .body (bytes ++ check.take 1)))).mode = .silent := by decide +kernel

theorem test_idleGapExpiry :
    (after (exec (.idleGapExpiry 0) (taking .gapWait []))).abu.rx = .ready ∧
      (after (exec (.idleGapExpiry 0) (taking .header [0x2A]))).abu.tally.byteDiscard = 1 := by decide +kernel

/-- A run with a reply in the queue. -/
def sending (tx : TxState) (deferral : Option Deferral) (e : TxEntry) : State :=
  { run with abu := { run.abu with rx := .ready, tx := tx, deferral := deferral, queue := [e] } }

theorem test_deferralExpiry :
    let t := after (exec (.deferralExpiry 1200) (sending .deferring (some ⟨20000, 6⟩) ⟨.reply, 9, [7, 1, 2], 0, false, false⟩))
    t.abu.tx = .sending ∧ t.abu.frame.take 8 = [0x32, 4, 9, 3, 3, 7, 1, 2] ∧ t.abu.frame.length = 10
      ∧ t.abu.queue.map TxEntry.inFlight = [true] := by decide +kernel

theorem test_transmissionComplete :
    let t := after (exec (.transmissionComplete 160) (sending .sending none ⟨.reply, 9, [7, 1, 2], 0, true, false⟩))
    t.abu.queue = [] ∧ t.abu.tx = .empty ∧ t.abu.rx = .gapWait := by decide +kernel

theorem test_collision :
    (after (exec (.collision 160) (sending .sending none ⟨.reply, 9, [7, 1, 2], 6, true, false⟩))).abu.queue
        = [⟨.reply, 9, [7, 1, 2], 7, false, false⟩] ∧
      (let t := after (exec (.collision 160) (sending .sending none ⟨.reply, 9, [7, 1, 2], 7, true, false⟩));
        t.abu.queue = [] ∧ t.abu.tally.txDropped = 1 ∧ t.abu.tally.collisions = 1) := by decide +kernel

/-! ### Requests -/

/-- A run with one delivered request of operator station 60. -/
def asked (body : List Byte) : State := { with3 closedPath with requests := [⟨60, body⟩] }

/-- The bodies of the replies waiting. -/
def replies (o : Host.Outcome State Fault Refusal) : List (List Byte) := (after o).abu.queue.map TxEntry.body

theorem test_isolate :
    replies (exec (.isolate 0) (asked [1, 17, 2, 0x08, 0x0C])) = [[1, 17, 0, 0x08, 0x0C, 1, 2, 7]] ∧
      ((after (exec (.isolate 0) (asked [1, 17, 2, 0x08, 0x0C]))).path 2).reason = some .manual := by decide +kernel

theorem test_release :
    replies (exec (.release 0) ({ asked [2, 17, 3, 0x08, 0x0C, 1] with boxTrip := true }.setHold 3 { Hold.reset with lockout := true }))
      = [[2, 17, 0, 0x08, 0x0C, 0, 4, 3, 7]] := by decide +kernel

/-- A released string closes when its voltage check passes, waits when it fails, and stays while SHUTDOWN holds it (R146, R142). -/
theorem test_release_goes_on :
    let s := fun (bus : Nat) (h : Hold) => { (asked [2, 17, 3, 0, 1, 0]).setHold 0 h with sfe := { run.sfe with bus := bus } }
    let locked := { Hold.reset with lockout := true, retryCount := 2 }
    let path := fun t : State => (t.path 0).state
    path (after (exec (.release 0) (s 80 locked))) = .making ∧ path (after (exec (.release 0) (s 81 locked))) = .isolated
      ∧ (after (exec (.release 0) (s 81 locked))).hold 0 = { Hold.reset with voltageRecheck := some 60020 }
      ∧ (after (exec (.release 0) (s 80 { locked with shutdown := true }))).hold 0 = { Hold.reset with shutdown := true } := by decide +kernel

theorem test_acknowledge :
    let t := after (exec (.acknowledge 0) { asked [3, 17, 2, 0, 2] with flg := ⟨[record 1 (some 9), record 2 none, record 3 none], 4, 0⟩ })
    t.flg.records.map FaultRecord.ackBy = [some 9, some 60, none] ∧ t.abu.queue.map TxEntry.body = [[3, 17, 0, 1]] := by decide +kernel

theorem test_readStatus :
    (replies (exec (.readStatus 0) (asked [4, 17, 0]))).map List.length = [31] ∧
      (replies (exec (.readStatus 0) (asked [4, 17, 0]))).map (List.take 12) = [[4, 17, 0, 1, 1, 0, 0, 0, 10, 0, 0, 0]] := by decide +kernel

theorem test_readStrings :
    (replies (exec (.readStrings 0) (asked [5, 17, 2, 8, 5]))).map List.length = [120] ∧
      replies (exec (.readStrings 0) (asked [5, 17, 2, 9, 5])) = [[5, 17, 2]] := by decide +kernel

theorem test_readLog :
    let s := { asked [6, 17, 3, 0, 2, 8] with flg := ⟨[record 1 (some 9), record 2 none], 3, 0⟩ }
    replies (exec (.readLog 0) s)
      = [[6, 17, 0, 1, 0, 2, 0x31, 0, 0, 0, 0, 0xFF, 0x38, 3, 0x20, 5, 1, 0]] := by decide +kernel

theorem test_readTally :
    let s := { asked [7, 17, 0] with abu := { run.abu with tally := ⟨300, 2, 3, 4, 5, 6, 7⟩ } }
    replies (exec (.readTally 0) s) = [[7, 17, 0, 1, 0x2C, 0, 2, 0, 3, 0, 4, 0, 5, 0, 6, 0, 7]] ∧
      (after (exec (.readTally 0) s)).abu.tally = Tally.zero := by decide +kernel

/-! ### The store and the service link -/

/-- A run in an open session, its last byte 20 ms ago, with a write in progress. -/
def inSession (write : Option Write) : State :=
  { run with svl := { run.svl with session := .opened }, nvs := { run.nvs with write := write } }

/-- The answers on their way. -/
def answers (o : Host.Outcome State Fault Refusal) : List (List Byte) := (after o).svl.answers.map Answer.bytes

theorem test_enter :
    let t := after (exec (.enter 0 [0x5C, 1, 2]) State.reset)
    t.svl.session = .opened ∧ t.svl.answers.map Answer.bytes = [[0x5C], [0, 1, 0, 0, 1]] := by decide +kernel

theorem test_readFactory : answers (exec (.readFactory 0) (inSession none)) = [0 :: (List.replicate 64 0xFF ++ [0x1F, 0xFF])] := by
  decide +kernel

theorem test_readPage :
    answers (exec (.readPage 0 [2]) (inSession none)) = [0 :: List.replicate 64 0xFF] ∧
      answers (exec (.readPage 0 [4]) (inSession none)) = [[1]] := by decide +kernel

theorem test_verifyPage :
    answers (exec (.verifyPage 0) (inSession none)) = [[0, 0]] ∧
      answers (exec (.verifyPage 0) (inSession (some ⟨.program, 0, [], 26, true⟩))) = [[3]] := by decide +kernel

theorem test_loadBuffer :
    let t := after (exec (.loadBuffer 0 (1 :: List.replicate 64 7)) (inSession none))
    t.nvs.buffer = List.replicate 64 7 ∧ t.svl.loadedPage = 1 ∧ t.svl.answers.map Answer.bytes = [[0]] := by decide +kernel

theorem test_programPage_and_programComplete :
    let t := after (exec (.programPage 0) (inSession none))
    t.nvs.write = some ⟨.program, 0, List.replicate 64 0xFF, 26, true⟩ ∧ t.svl.answers = [] ∧
      answers (exec (.programComplete 6000) t) = [[0]] ∧ (after (exec (.programComplete 6000) t)).nvs.write = none := by decide +kernel

theorem test_eraseStore_and_eraseComplete :
    let s := { inSession none with nvs := { run.nvs with store := [(3, 4), (130, 1), (192, 5)], sealSet := true } }
    let t := after (exec (.eraseStore 0) s)
    t.nvs.store = [(192, 5)] ∧ (after (exec (.eraseComplete 12000) t)).nvs.sealSet = false := by decide +kernel

theorem test_seal_and_sealComplete :
    answers (exec (.sealStore 0) (inSession none)) = [[5]] ∧
      (let t := after (exec (.sealComplete 0) (inSession (some ⟨.sealing, 2, lockoutPageBytes 0 0, 20, true⟩)));
        t.nvs.sealSet = true ∧ lockoutPageGood t.nvs.store = true) := by decide +kernel

theorem test_lockoutPageWriteComplete :
    let t := after (exec (.lockoutPageWriteComplete 0) (inSession (some ⟨.lockoutPage, 2, lockoutPageBytes 256 2, 20, false⟩)))
    lockoutPageGood t.nvs.store = true ∧ pageLockoutMask t.nvs.store = 256 ∧ pageManualMask t.nvs.store = 2
      ∧ t.svl.answers = [] := by decide +kernel

theorem test_restart :
    let t := after (exec (.restart 0) (inSession none))
    t.svl.restart = some 20521 ∧ (after (exec (.serviceRestart 520 false) t)).settings = some cfg ∧
      (after (exec (.serviceRestart 521 false) t)).nvs.lastReset = .serviceRestart := by decide +kernel

/-- A second RESTART leaves the moment of the first (R181). -/
theorem test_restart_twice :
    let s := { inSession none with svl := { (inSession none).svl with restart := some 20521, linkFree := 20521 } }
    (after (exec (.restart 0) s)).svl.restart = some 20521 := by decide +kernel

theorem test_unknownCommandByte :
    let t := after (exec (.unknownCommandByte 0 0x49) (inSession none))
    t.svl.answers.map Answer.bytes = [[6]] ∧ t.svl.skipping = true := by decide +kernel

theorem test_commandTimeout :
    let s := { inSession none with svl := { run.svl with session := .opened, receiving := [0x42], lastByte := 20 } }
    (after (exec (.commandTimeout 99999) s)).svl.receiving = [0x42] ∧ (after (exec (.commandTimeout 100000) s)).svl.receiving = [] := by
  decide +kernel

/-- The silence is measured on the millisecond uptime: a byte at 20.999 ms and 99.501 ms after it are 100 ms apart (00 4.3). -/
theorem test_silence_in_milliseconds :
    let s := after (exec (.readPage 999 []) { run with svl := { run.svl with session := .opened, lastByte := 20 } })
    s.timeUs = 20999 ∧ s.svl.receiving = [0x42] ∧ s.svl.lastByte = 20 ∧ (after (exec (.commandTimeout 99501) s)).svl.receiving = [] := by
  decide +kernel

theorem test_sessionTimeout :
    (after (exec (.sessionTimeout 9979999) (inSession none))).svl.session = .opened ∧
      (after (exec (.sessionTimeout 9980000) (inSession none))).svl.session = .none := by decide +kernel

theorem test_serviceStopError :
    (after (exec (.serviceStopError 0) { run with svl := { run.svl with session := .entry2 } })).svl.session = .none := by decide +kernel

/-! ### Resets -/

/-- The bytes of a commissioning record of station 4 (12.5). -/
def recordImage : List Byte :=
  [0x3C, 0x12, 4, 3, 0, 150, 0, 150, 0, 150, 6, 3, 0, 50, 0, 100, 5, 0xDC, 1, 0x90, 0, 100, 8, 0, 80, 10, 3, 4, 60, 0, 20, 9]
    ++ (List.replicate 11 ([1, 2, 3, 0xE8, 0] : List Byte)).flatten ++ [0, 0xFF, 0xFF, 0xFF, 0xFF]

/-- A machine whose store holds that record, a lockout page that names string 9, and a factory page with one good pair. -/
def commissioned : State :=
  { State.reset with nvs := { State.reset.nvs with
      store := Memory.writeBytes (Memory.writeBytes (Memory.writeBytes [] 0 recordImage) 128 (lockoutPageBytes 256 0)) 198 [5, 3, 0xF2] } }

theorem test_powerOn :
    let t := after (exec (.powerOn false) commissioned)
    t.mode = .run ∧ (t.hold 8).lockout = true ∧ (t.hold 7).lockout = false ∧ (t.hold 8).startupUntil = some 21000
      ∧ (t.hold 11).startupUntil = none ∧ t.sfe.trims[2] = ⟨5, 1010, false⟩ ∧ t.sfe.trims[3] = ⟨0, 1024, true⟩
      ∧ t.wac.countdown = some 15 := by decide +kernel

theorem test_powerOn_of_an_erased_store : after (exec (.powerOn false) State.reset) = State.reset := by decide +kernel

theorem test_supplyDip :
    let t := after (exec (.supplyDip true) { commissioned with flg := ⟨[record 1 none], 2, 0⟩ })
    t.nvs.lastReset = .supplyDip ∧ t.flg = ⟨[], 1, 0⟩ ∧ (t.hold 2).shutdown = true ∧ t.hld.shutdown = true := by decide +kernel

theorem test_serviceRestart :
    let t := after (exec (.serviceRestart 0 false) { commissioned with
      flg := ⟨[record 1 none], 2, 0⟩, svl := { Svl.reset with restart := some 0 } })
    t.flg = ⟨[{ record 1 none with declared := none }], 2, 0⟩ ∧ t.nvs.lastReset = .serviceRestart ∧ t.svl.restart = none := by
  decide +kernel

/-- A page left by a write that was cut off, if it is left erased or holds 0 in its first two bytes: it fails the load's check whatever
the other page holds (R176). -/
theorem test_a_cut_page_is_bad :
    pageBad [] 0 = true ∧ pageBad [] 1 = true ∧ pageBad [] 2 = true ∧ pageBad commissioned.nvs.store 0 = false
      ∧ pageBad commissioned.nvs.store 1 = false ∧ pageBad (Memory.write commissioned.nvs.store 87 1) 1 = true := by decide +kernel

/-- A record with a station number out of range fails at field 2. -/
theorem test_offendingField :
    offendingField (Memory.write commissioned.nvs.store 2 63) = 2 ∧ offendingField [] = 1 ∧
      offendingField (Memory.write commissioned.nvs.store 87 1) = 68 := by decide +kernel

/-! ### Witnesses: states and operands that meet the hypotheses of the obligations, each clause at a boundary of its range -/

theorem witness_StepRunsTheFrontCommand : State.reset.pending = [] := rfl

theorem witness_ArrivalsAndDemandsAreTakenBeforeTimePasses :
    0 < (Instr.windowSample 1).span ∧ (State.reset.arrivals = [] ∧ State.reset.demands = []) ∧ State.reset.settings = none
      ∧ run.settings = some cfg
      ∧ ((run.withDemands [⟨2, .manual, 1⟩]).demands.filter fun d => decide (d.string = 2)) ≠ []
      ∧ (((with3 closedPath).withDemands [⟨2, .manual, 1⟩]).path 2).state = .closed := by decide +kernel

/-- A commissioned machine whose RESTART has been answered. -/
def restarting : State := { commissioned with svl := { Svl.reset with restart := some 0 } }

/-- The same machine, with the answer sent at a moment, and with a write in progress. -/
def restartingAt (sent : Nat) (write : Option Write) : State :=
  { restarting with svl := { Svl.reset with restart := some sent }, nvs := { commissioned.nvs with write := write } }

/-- A write of each kind, in progress. -/
def someWrite (kind : WriteKind) (page : Nat) : Write := ⟨kind, page, List.replicate 64 7, 20, true⟩

theorem witness_ResetsPutEveryBlockAtItsResetValues :
    restarting.settled.svl.restart = some 0 ∧ 0 ≤ restarting.timeUs + 0 ∧ restarting.settled.nvs.write = none
      ∧ (restartingAt 1 none).settled.svl.restart = some 1 ∧ (restartingAt 1 none).timeUs + 0 < 1
      ∧ (restartingAt 0 (some (someWrite .program 0))).settled.nvs.write ≠ none := by decide +kernel

theorem witness_FaultLogAcrossResets :
    restarting.settled.svl.restart = some 0 ∧ 0 ≤ restarting.settled.timeUs + 0 ∧ restarting.settled.nvs.write = none := by
  decide +kernel

/-- The commissioned machine with factory pairs at the limits of the trims for strings 1 and 2 and for the box total, and just beyond them
for strings 4 and 5. -/
def trimmed : State :=
  { commissioned with nvs := { commissioned.nvs with
      store := Memory.writeBytes (Memory.writeBytes (Memory.writeBytes commissioned.nvs.store 192 [0xC0, 3, 0xC0, 0x3F, 4, 0x40]) 201
        [0xBF, 3, 0xC0, 0x3F, 4, 0x41]) 228 [0x3F, 3, 0xC0] } }

theorem witness_SettingsLoadDecidesTheMode :
    let m := (cutOff trimmed.settled.nvs).store
    let offset := fun k : Nat => (Memory.read m (192 + k)).toInt
    let gain := fun k : Nat => (Memory.read m (192 + k + 1)).toNat * 256 + (Memory.read m (192 + k + 2)).toNat
    trimmed.settled.nvs.write = none ∧ offendingField m = 0 ∧ State.reset.settled.nvs.write = none
      ∧ offendingField (cutOff State.reset.settled.nvs).store ≠ 0 ∧ offset 0 = -64 ∧ gain 0 = 960 ∧ offset 3 = 63 ∧ gain 3 = 1088
      ∧ offset 9 = -65 ∧ gain 12 = 1089 ∧ offset 36 = 63 ∧ gain 36 = 960
      ∧ restarting.settled.svl.restart = some 0 ∧ 0 ≤ restarting.settled.timeUs + 0 ∧ restarting.settled.nvs.write = none := by
  decide +kernel

theorem witness_RecordFieldsAreCheckedInOrder :
    let m := commissioned.nvs.store
    offendingField m = 0 ∧ offendingField [] = 1 ∧ offendingField (Memory.write m 91 2) = 0
      ∧ offendingField (Memory.write (Memory.write (Memory.writeBytes m 87 [1, 2, 3, 0xE8, 2]) 2 62) 3 15) = 70
      ∧ offendingField (Memory.write m 31 63) = 22 ∧ offendingField (Memory.write m 32 2) = 23
      ∧ (∀ a, a < 92 → Memory.read (Memory.write m 92 0) a = Memory.read m a) := by decide +kernel

/-- The commissioned machine with a byte of its lockout page changed: the page is not good. -/
def pageSpoiled : State := { commissioned with nvs := { commissioned.nvs with store := Memory.write commissioned.nvs.store 130 9 } }

theorem witness_StartUpHoldsFollowTheLockoutPage :
    let m := (cutOff commissioned.settled.nvs).store
    offendingField m = 0 ∧ lockoutPageGood m = true
      ∧ offendingField (cutOff pageSpoiled.settled.nvs).store = 0 ∧ lockoutPageGood (cutOff pageSpoiled.settled.nvs).store = false
      ∧ (settingsOf m).strings[(0 : StringIdx)].present = true ∧ (settingsOf m).strings[(11 : StringIdx)].present = false
      ∧ restarting.settled.svl.restart = some 0 ∧ restarting.settled.nvs.write = none := by decide +kernel

theorem witness_WritesCutOffByAResetLeaveBadPages :
    let s := fun w : Write => restartingAt 0 (some w)
    (s (someWrite .program 0)).settled.nvs.write = some (someWrite .program 0)
      ∧ (s (someWrite .program 1)).settled.nvs.write = some (someWrite .program 1)
      ∧ (s (someWrite .erase 0)).settled.nvs.write = some (someWrite .erase 0)
      ∧ (s (someWrite .sealing 2)).settled.nvs.write = some (someWrite .sealing 2)
      ∧ (s (someWrite .lockoutPage 2)).settled.nvs.write = some (someWrite .lockoutPage 2)
      ∧ offendingField (s (someWrite .lockoutPage 2)).settled.nvs.store = 0 := by decide +kernel

theorem witness_TickTakesEveryInput :
    (run.arrive 0).sfe.nextTick ≤ (run.arrive 0).timeUs ∧ (State.reset.arrive 10000).sfe.nextTick ≤ (State.reset.arrive 10000).timeUs
      ∧ run.sfe.totalTrim.offset = 0 ∧ run.sfe.totalTrim.gain = 1024
      ∧ ({ raw 2048 0 with total := 4095 } : RawInputs).total = 4095 ∧ ({ raw 2048 0 with total := 0 } : RawInputs).total = 0
      ∧ (-64 : Int) ≤ -64 ∧ (63 : Int) ≤ 63 ∧ 960 ≤ 960 ∧ 1088 ≤ 1088 := by decide +kernel

theorem witness_TickFrame :
    exec (.protectionTick 10000 (raw 2048 0) (first [])) State.reset
        = .next (after (exec (.protectionTick 10000 (raw 2048 0) (first [])) State.reset))
      ∧ State.reset.settings = none ∧ (State.reset.arrive 10000).sfe.nextTick ≤ (State.reset.arrive 10000).timeUs ∧ run.settings ≠ none
      ∧ exec (.protectionTick 0 (raw 2048 0) (first [])) run = .next (after (exec (.protectionTick 0 (raw 2048 0) (first [])) run))
      ∧ (State.reset.arrive 9999).timeUs < (State.reset.arrive 9999).sfe.nextTick ∧ 127 / 64 ≠ 2 ∧ 192 / 64 ≠ 2 :=
  ⟨rfl, rfl, by decide +kernel, nofun, rfl, by decide +kernel, by decide, by decide⟩

/-- The latest current of string 3 after a tick with a raw code on all channels. -/
def ticked (code : BitVec 12) : Int := (after (exec (.protectionTick 0 (raw code 0) (first [])) (with3 closedPath))).sfe.currents[(2 : StringIdx)]

/-- A CLOSED string 3 with an adjudication record and a latest current. -/
def measuring (p : Path) (a : AdjRecord) (current : Int) : State :=
  { (with3 p).setAdj 2 a with sfe := { run.sfe with currents := Vector.replicate 12 current } }

theorem witness_FastCheckRunsFollowTheSample :
    let s := fun (p : Path) (reverse beyond : Nat) => (with3 p).setAdj 2 ⟨0, reverse, none, beyond, none⟩
    (s closedPath 1 0).settings = some cfg ∧ (takeArrivals ((s closedPath 1 0).arrive 0)) = s closedPath 1 0 ∧ (s closedPath 1 0).sfe.nextTick ≤ (s closedPath 1 0).timeUs
      ∧ .fastCheck 2 ∈ (late [.fastCheck 2]).late ∧ .fastCheck 2 ∉ (first []).late
      ∧ ((s closedPath 1 0).path 2).state = .closed ∧ ((s (closingPath 0 8) 1 0).path 2).state = .closing
      ∧ ticked 1948 = -(cfg.reverseLimit : Int) ∧ ((s closedPath 1 0).adjOf 2).reverseRun < 2
      ∧ ((s closedPath 2 0).adjOf 2).reverseRun = 2
      ∧ ticked 3548 = (cfg.overcurrentLimit : Int) ∧ ((s closedPath 0 1).adjOf 2).overRun < 2 ∧ ((s closedPath 0 2).adjOf 2).overRun = 2
      ∧ ticked 1949 = -99 ∧ ticked 3547 = 1499 ∧ ((s (openingPath 255 8) 1 0).path 2).state = .opening := by decide +kernel

theorem witness_ThirdFastSampleDeclares :
    let s := measuring closedPath ⟨0, 2, some (-120), 0, none⟩ (-100)
    let t := measuring (closingPath 0 8) ⟨0, 0, none, 2, some 1499⟩ 1500
    s.settings = some cfg ∧ (s.path 2).state = .closed ∧ s.sfe.currents[(2 : StringIdx)] ≤ -(cfg.reverseLimit : Int)
      ∧ (s.adjOf 2).reverseRun = 2 ∧ (-120 : Int) = min ((s.adjOf 2).reversePeak.getD (-100)) (-100)
      ∧ t.settings = some cfg ∧ (t.path 2).state = .closing ∧ ¬ t.sfe.currents[(2 : StringIdx)] ≤ -(cfg.reverseLimit : Int)
      ∧ (cfg.overcurrentLimit : Int) ≤ t.sfe.currents[(2 : StringIdx)] ∧ (t.adjOf 2).overRun = 2
      ∧ (1500 : Int) = max ((t.adjOf 2).overPeak.getD 1500) 1500 ∧ cfg.strings[(2 : StringIdx)].present = true
      ∧ takeArrivals (s.arrive 0) = s ∧ s.sfe.nextTick ≤ s.timeUs ∧ ticked 1948 = -(cfg.reverseLimit : Int)
      ∧ (∀ d ∈ s.demands, d.string ≠ 2) := by decide +kernel

theorem witness_ZeroBandSampleSendsToParting :
    let s := with3 (lowPath .confirming (some 60))
    let t := with3 (lowPath .stuck none)
    s.settings = some cfg ∧ takeArrivals (s.arrive 0) = s ∧ s.sfe.nextTick ≤ s.timeUs ∧ (s.path 2).state = .confirming
      ∧ t.settings = some cfg ∧ takeArrivals (t.arrive 0) = t ∧ t.sfe.nextTick ≤ t.timeUs ∧ (t.path 2).state = .stuck
      ∧ ticked 2028 = -20 ∧ ticked 2068 = 20 ∧ ticked 2027 = -21 ∧ ticked 2069 = 21 := by decide +kernel

/-- A run with an alarm run and a run peak. -/
def alarmed (n : Nat) (p : Option Peak) (score : Nat) : State :=
  { with3 closedPath with acu := { Acu.reset with alarmRun := n, runPeak := p }, sfe := { run.sfe with score := score } }

theorem witness_ArcContestFollowsTheTick :
    let score := fun s : State => fun code : BitVec 10 => (after (exec (.protectionTick 0 (raw 2048 code) (first [])) s)).sfe.score
    let stands := { alarmed 2 (some peak) 401 with acu := { (alarmed 2 (some peak) 401).acu with contest := .yielded 1 none none } }
    let fighting := { alarmed 0 none 0 with acu := { Acu.reset with contest := .contest 1 peak 2 20 none } }
    let settling := { alarmed 0 none 0 with acu := { Acu.reset with contest := .settle 520 } }
    let waiting := { alarmed 3 (some peak) 0 with acu := { Acu.reset with alarmRun := 3, contest := .yielded 1 (some 2000) (some 20) } }
    takeArrivals ((alarmed 0 none 0).arrive 0) = alarmed 0 none 0
      ∧ (alarmed 0 none 0).settings = some cfg ∧ (alarmed 0 none 0).sfe.nextTick ≤ (alarmed 0 none 0).timeUs
      ∧ (alarmed 0 none 0).acu.alarmRun = 0 ∧ (alarmed 3 (some peak) 0).acu.alarmRun ≤ 3
      ∧ score (alarmed 0 none 0) 400 = cfg.arcThreshold ∧ cfg.arcThreshold < score (alarmed 0 none 0) 401
      ∧ 1 ≤ (alarmed 1 (some peak) 0).acu.alarmRun ∧ (alarmed 1 (some peak) 0).acu.runPeak = some peak
      ∧ (alarmed 2 (some peak) 0).acu.contest = .idle
      ∧ (after (exec (.protectionTick 0 (raw 2048 401) (first [])) (alarmed 2 (some peak) 0))).acu.alarmRun = 3
      ∧ (after (exec (.protectionTick 0 (raw 2048 401) (first [])) (alarmed 2 (some peak) 0))).acu.runPeak = some peak
      ∧ chooseString peak.shares (alarmed 2 (some peak) 0).arcCandidate = some 2
      ∧ chooseString peak.shares ((alarmed 2 (some peak) 0).setPath 2 Path.reset).arcCandidate = none
      ∧ (alarmed 2 (some peak) 0).acu.rivals = [] ∧ (alarmed 2 (some peak) 0).acu.latch = false
      ∧ fighting.acu.contest = .contest 1 peak 2 20 none ∧ peak.score < score fighting 501 ∧ score fighting 500 ≤ peak.score
      ∧ stands.acu.contest = .yielded 1 none none ∧ waiting.acu.contest = .yielded 1 (some 2000) (some 20)
      ∧ (after (exec (.protectionTick 0 (raw 2048 401) (first [])) stands)).acu.alarmRun = 3
      ∧ settling.acu.contest = .settle 520 ∧ .arcContest ∈ (late [.arcContest]).late ∧ .arcContest ∉ (first []).late := by decide +kernel

theorem witness_ChoiceTakesTheGreatestShare :
    (∀ i : StringIdx, (fun _ => false) i = false) ∧
      chooseString (((Vector.replicate 12 5).set 2 9).set 4 9) (fun _ => true) = some 2 := by decide +kernel

/-- A run whose countdown stands at a number. -/
def counting (n : Option Nat) : State := { run with wac := { run.wac with countdown := n } }

theorem witness_WindowSampleAddsEveryCurrent :
    let s := fun n : Nat => { run with wac := { run.wac with sampleDue := true, count := n } }
    (counting none).settings = some cfg ∧ ((counting none).arrive 0) = counting none ∧ (counting none).sfe.nextTick ≤ (counting none).timeUs
      ∧ (counting (some 2)).wac.countdown = some 2 ∧ (counting (some 1)).wac.countdown = some 1
      ∧ run.wac.sampleDue = false ∧ 64 ≤ (s 64).wac.count ∧ ((s 62).arrive 0).wac.sampleDue = true ∧ (s 62).wac.count < 63
      ∧ ((s 63).arrive 0).wac.sampleDue = true ∧ (s 63).wac.count = 63 := by decide +kernel

/-- A run at the end of a window: its box sum, the path-change mark, the box measurement and its runs. -/
def closing (boxSum : Int) (changed valid : Bool) (mismatches hits : Nat) : State :=
  { run with wac := { run.wac with
      count := 64, boxSum := boxSum, endedChanged := changed, boxValid := valid, mismatchRun := mismatches, matchRun := hits } }

theorem witness_WindowCloseFormsMeansAndChecksTheBox :
    let s := { closing 0 true true 0 0 with wac := { (closing 0 true true 0 0).wac with sums := Vector.replicate 12 (-32) } }
    let isMatch := fun u : State => ((after (exec (.windowClose 0 atOnce) u)).wac.means.toList.sum - roundDiv u.wac.boxSum 64).natAbs
      ≤ max 20 ((roundDiv u.wac.boxSum 64).natAbs * 30 / 1000)
    s.settings = some cfg ∧ s.arrive 0 = s ∧ s.wac.count = 64
      ∧ (let mean := (after (exec (.windowClose 0 atOnce) s)).wac.means[(0 : StringIdx)];
        (2 * mean * 64 - 2 * s.wac.sums[(0 : StringIdx)]).natAbs = 64)
      ∧ (closing 1280 true true 1 1).wac.mismatchRun ≤ 1 ∧ (closing 1280 true true 1 1).wac.matchRun ≤ 1
      ∧ (closing 1280 true true 1 1).wac.endedChanged = true ∧ (closing 1280 false true 1 1).wac.endedChanged = false
      ∧ isMatch (closing 1280 false true 1 0) ∧ ¬ isMatch (closing 1344 false true 0 0) ∧ ¬ isMatch (closing 1344 false true 1 0)
      ∧ ¬ isMatch (closing 1344 false false 0 1) ∧ isMatch (closing 1280 false false 0 0) ∧ isMatch (closing 1280 false false 0 1) := by
  decide +kernel

theorem witness_ReferenceIsTheMedianOfTheContributors :
    let s := closing 0 true true 0 0
    s.settings = some cfg ∧ s.arrive 0 = s ∧ s.wac.count = 64
      ∧ cfg.strings[(0 : StringIdx)].present = true ∧ cfg.strings[(0 : StringIdx)].group = (2 : Fin 8).val
      ∧ (∀ i : StringIdx, cfg.strings[i].present = true → cfg.strings[i].group ≠ (0 : Fin 8).val)
      ∧ Rfu.reset.groups[(2 : Fin 8)] = none
      ∧ (Rfu.reset.groups.set 2 (some ⟨5, some 809, false⟩))[(2 : Fin 8)] = some ⟨5, some 809, false⟩
      ∧ [(300 : Int), 310].Perm [310, 300] ∧ [(300 : Int), 310].Pairwise (· ≤ ·) ∧ [(310 : Int), 300].length < 3
      ∧ [(50 : Int), 51, 52].Pairwise (· ≤ ·) ∧ 3 ≤ [(50 : Int), 51, 52].length ∧ [(50 : Int), 51, 52].length % 2 = 1
      ∧ 2 ≤ [(310 : Int), 300].length ∧ [(310 : Int), 300].length ≠ 0 ∧ [(310 : Int), 300].length % 2 = 0 := by decide +kernel

/-- The end of a window with all strings at one mean and all but string 1 closed throughout. -/
def ending (mean : Int) (closed valid : Bool) (settings : Settings) : State :=
  { run with
    settings := some settings
    wac := { run.wac with
      count := 64, sums := Vector.replicate 12 (mean * 64), endedChanged := true, boxValid := valid
      endedClosed := (Vector.replicate 12 closed).set 0 false } }

theorem witness_CloseWritesVerdictsAndDeviations :
    let s := ending 800 true true cfg
    let record := fun u : State => ((after (exec (.windowClose 0 atOnce) u)).rfu.groups[2]).map fun r => (r.reference.isSome, r.dark)
    let valid := fun u : State => (after (exec (.windowClose 0 atOnce) u)).wac.boxValid
    s.settings = some cfg ∧ s.arrive 0 = s ∧ s.wac.count = 64 ∧ cfg.strings[(11 : StringIdx)].present = false
      ∧ cfg.strings[(0 : StringIdx)].present = true ∧ valid (ending 800 true false cfg) = false
      ∧ cfg.strings[(7 : StringIdx)].group = 15 ∧ valid s = true ∧ s.wac.endedClosed[(0 : StringIdx)] = false
      ∧ cfg.strings[(0 : StringIdx)].group < 8 ∧ s.wac.endedClosed[(1 : StringIdx)] = true
      ∧ record s = some (true, false) ∧ record (ending 49 true true cfg) = some (true, true)
      ∧ record (ending 800 true true { cfg with minContributors := 15 }) = some (false, false) := by decide +kernel

theorem witness_VerdictChangesTheStrikeCount :
    let s := fun n : Nat => (with3 closedPath).setAdj 2 ⟨n, 0, none, 0, none⟩
    let verdict := fun u : State => (after (exec (.windowClose 0 atOnce) u)).rfu.strings[(2 : StringIdx)]
    (cfg.guardHigh : Int) = 150 ∧ -(cfg.guardLow : Int) ≤ -150 ∧ (150 : Int) ≤ cfg.guardHigh ∧ (-151 : Int) < -(cfg.guardLow : Int)
      ∧ (cfg.guardHigh : Int) < 151
      ∧ ((s 4).adjOf 2).strikes + 1 < cfg.persistence ∧ cfg.persistence ≤ ((s 5).adjOf 2).strikes + 1
      ∧ cfg.strings[(3 : StringIdx)].action = .reportOnly ∧ cfg.strings[(2 : StringIdx)].action = .isolate
      ∧ window45.settings = some cfg ∧ window45.arrive 0 = window45 ∧ window45.wac.count = 64
      ∧ cfg.strings[(11 : StringIdx)].present = false ∧ cfg.strings[(2 : StringIdx)].present = true
      ∧ (verdict window45).verdict = some .full ∧ (verdict window45).deviation = some (-200)
      ∧ (-200 : Int) < -(cfg.guardLow : Int) ∧ cfg.persistence ≤ (window45.adjOf 2).strikes + 1
      ∧ (verdict (ending 800 false true cfg)).verdict = some .partialWindow ∧ (verdict (ending 800 true false cfg)).verdict = some .held
      ∧ (verdict (ending 49 true true cfg)).verdict = some .dark ∧ (verdict (ending 800 true true cfg)).deviation = some 0
      ∧ atOnce.verdictsWait = false ∧ (⟨false, true, false⟩ : CloseOrder).verdictsWait = true
      ∧ cfg.strings[(2 : StringIdx)].group < 8
      ∧ (after (exec (.windowClose 0 atOnce) window45)).rfu.groups[(2 : Fin 8)] = some ⟨5, some 800, false⟩ := by decide +kernel

theorem witness_PeersAgeAtTheWindowClose :
    (closing 0 true true 0 0).settings = some cfg ∧ (closing 0 true true 0 0).arrive 0 = closing 0 true true 0 0
      ∧ (closing 0 true true 0 0).wac.count = 64 := by decide +kernel

/-- The end of a window with a transmit queue. -/
def queued (tx : TxState) (silent : Bool) (queue : List TxEntry) : State :=
  { closing 0 true true 0 0 with abu := { run.abu with tx := tx, silent := silent, queue := queue } }

theorem witness_WindowCloseOffersTheDigest_layout :
    let groups : List GroupEntry := [⟨0, 12, some (-4000), true⟩, ⟨7, 0, none, false⟩, ⟨7, 12, some 4000, false⟩]
    [(300 : Int), 310].Perm [310, 300] ∧ [(300 : Int), 310].Pairwise (· ≤ ·) ∧ [(310 : Int), 300].length % 2 = 0 ∧ [(310 : Int), 300] ≠ []
      ∧ [(5 : Int)].length % 2 = 1 ∧ groups.length ≤ 8 ∧ groups[0]? = some ⟨0, 12, some (-4000), true⟩
      ∧ groups[1]? = some ⟨7, 0, none, false⟩ ∧ groups[2]? = some ⟨7, 12, some 4000, false⟩
      ∧ digestBody 41 groups = [0, 41, 3, 0, 12, 3, 0xF0, 0x60, 7, 0, 0, 0, 0, 7, 12, 2, 0x0F, 0xA0] := by decide +kernel

theorem witness_WindowCloseOffersTheDigest :
    let reply : TxEntry := ⟨.reply, 9, [7, 1, 2], 0, false, false⟩
    let ready := { queued .empty false [] with abu := { (queued .empty false []).abu with rx := .ready } }
    (queued .empty true []).settings = some cfg ∧ (queued .empty true []).arrive 0 = queued .empty true []
      ∧ (queued .empty true []).wac.count = 64 ∧ (queued .empty true []).abu.silent = true
      ∧ (∃ e ∈ (queued .waiting false [⟨.digest, 0, [1], 0, false, false⟩]).abu.queue, e.kind = .digest)
      ∧ (queued .waiting false (List.replicate 7 reply)).abu.silent = false
      ∧ (∀ e ∈ (queued .waiting false (List.replicate 7 reply)).abu.queue, e.kind ≠ .digest)
      ∧ (queued .waiting false (List.replicate 7 reply)).abu.queue.length < 8
      ∧ (queued .sending false (List.replicate 7 reply)).abu.tx ≠ .empty
      ∧ (queued .empty false []).abu.tx = .empty ∧ (queued .empty false []).abu.rx ≠ .ready
      ∧ ready.abu.tx = .empty ∧ ready.abu.rx = .ready ∧ ready.abu.queue = []
      ∧ (∀ e ∈ (queued .waiting false (List.replicate 8 reply)).abu.queue, e.kind ≠ .digest)
      ∧ 8 ≤ (queued .waiting false (List.replicate 8 reply)).abu.queue.length := by decide +kernel

theorem witness_GoodRunRestoresTheBudget :
    let s := fun n : Nat => { (with3 closedPath).setHold 2 { Hold.reset with closedSince := some 0 } with timeUs := n }
    run.present 11 = false ∧ (run.path 2).state ≠ .closed ∧ (s 0).present 2 = true ∧ ((s 0).path 2).state = .closed
      ∧ 0 < (((s 0).setAdj 2 ⟨1, 0, none, 0, none⟩).adjOf 2).strikes ∧ ((s 0).adjOf 2).strikes = 0
      ∧ ((s 0).hold 2).closedSince = some 0 ∧ 3600000 * cfg.goodRun ≤ since (s 14400000000).nowMs 0
      ∧ since (s 14399999000).nowMs 0 < 3600000 * cfg.goodRun
      ∧ (closing 0 true true 0 0).settings = some cfg ∧ (closing 0 true true 0 0).arrive 0 = closing 0 true true 0 0
      ∧ (closing 0 true true 0 0).wac.count = 64 ∧ ((closing 0 true true 0 0).adjOf 2).strikes + 1 < cfg.persistence := by decide +kernel

theorem witness_ShutdownLineHoldsAndReturnsTheStrings :
    let level := fun (input taken : Bool) => { run with hld := { run.hld with input := input, shutdown := taken } }
    (run.arrive 0).hld.input = run.hld.shutdown ∧ ((level true false).arrive 0).hld.input = true ∧ (level true false).hld.shutdown = false
      ∧ ((level false true).arrive 0).hld.input = false ∧ (level false true).hld.shutdown = true ∧ run.present 11 = false ∧ run.present 2 = true
      ∧ ((with3 closedPath).path 2).state = .closed ∧ ((with3 (closingPath 0 8)).path 2).state = .closing
      ∧ ((with3 (lowPath .making (some 50))).path 2).state = .making
      ∧ ((with3 (openingPath 64 2)).path 2).state = .opening ∧ ((with3 (openingPath 64 2)).path 2).stepsLeft ≠ some 1
      ∧ ((with3 (openingPath 38 1)).path 2).stepsLeft = some 1 ∧ ((with3 (lowPath .confirming (some 50))).path 2).state = .confirming
      ∧ (run.path 2).state = .isolated := by decide +kernel

theorem witness_RampsLowerAndRaiseTheDrive :
    let s := with3 (openingPath 63 2)
    let t := with3 (openingPath 38 1)
    let u := with3 (closingPath 186 2)
    let v := with3 (closingPath 217 1)
    let w := with3 { lowPath .making (some 20) with isolationStart := none }
    s.arrive 2000 = s.elapse 2000 ∧ (s.path 2).state = .opening ∧ (s.path 2).stepCount = some 8 ∧ (s.path 2).stepsLeft = some 2
      ∧ (s.path 2).deadline = some 22 ∧ reached (s.arrive 2000).nowMs 22 = true ∧ 255 / 8 < (s.path 2).level ∧ (t.path 2).stepsLeft = some 1
      ∧ (u.path 2).state = .closing ∧ (u.path 2).stepsLeft = some 2 ∧ (u.path 2).level + 255 / 8 < 255
      ∧ (v.path 2).state = .closing ∧ (v.path 2).stepsLeft = some 1
      ∧ w.settings = some cfg ∧ (w.path 2).state = .making ∧ (w.path 2).deadline = some 20 ∧ reached (w.arrive 0).nowMs 20 = true
      ∧ 1 ≤ 1 ∧ 16 ≤ 16 ∧ 255 ≤ 255 ∧ rampDownSteps 255 16 = 16 ∧ rampDownSteps 255 1 = 1 := by decide +kernel

theorem witness_ConfirmDeadlineFindsTheSwitchStuck :
    let s := fun records => { with3 (lowPath .confirming (some 20)) with flg := ⟨records, 40, 0⟩ }
    let open' := (List.range 32).map fun n => record (n + 1) none
    let half := record 1 (some 9) :: (List.range 31).map fun n => record (n + 2) none
    (s open').settings = some cfg ∧ ((s open').path 2).state = .confirming ∧ ((s open').path 2).deadline = some 20
      ∧ ((s open').path 2).isolationStart = some 20 ∧ reached ((s open').arrive 0).nowMs 20 = true
      ∧ (s (open'.take 31)).flg.records.length < 32 ∧ cfg.strings[(2 : StringIdx)].present = true
      ∧ 32 ≤ (s open').flg.records.length ∧ (∀ r ∈ (s open').flg.records, r.ackBy = none)
      ∧ 32 ≤ (s half).flg.records.length ∧ (s half).flg.records = [] ++ record 1 (some 9) :: half.drop 1
      ∧ (record 1 (some 9)).ackBy ≠ none := by decide +kernel

/-- Whether the voltages of string 3 and the bus are within the voltage window. -/
def near (s : State) : Bool := decide (((s.sfe.voltages[(2 : StringIdx)] : Int) - (s.sfe.bus : Int)).natAbs ≤ cfg.voltageWindow)

theorem witness_PartingDeadlineIsolates :
    let s := fun (bus : Nat) (h : Hold) => { (with3 (lowPath .parting (some 20))).setHold 2 h with sfe := { run.sfe with bus := bus } }
    (s 0 Hold.reset).settings = some cfg ∧ ((s 0 Hold.reset).path 2).state = .parting ∧ ((s 0 Hold.reset).path 2).deadline = some 20
      ∧ reached ((s 0 Hold.reset).arrive 0).nowMs 20 = true ∧ ((s 0 { Hold.reset with manual := true }).hold 2).empty = false
      ∧ cfg.strings[(11 : StringIdx)].present = false ∧ ((s 80 Hold.reset).hold 2).empty = true
      ∧ cfg.strings[(2 : StringIdx)].present = true ∧ near (s 80 Hold.reset) = true ∧ near (s 81 Hold.reset) = false := by decide +kernel

theorem witness_OpenDemandsAndClosePermissionsActByPathState :
    ((with3 closedPath).path 2).state = .closed ∧ ((with3 (closingPath 217 1)).path 2).state = .closing
      ∧ ((with3 (lowPath .making (some 50))).path 2).state = .making ∧ ((with3 (openingPath 64 2)).path 2).state = .opening
      ∧ ((with3 (openingPath 64 2)).path 2).stepsLeft ≠ some 1 ∧ ((with3 (openingPath 38 1)).path 2).stepsLeft = some 1
      ∧ ((with3 (lowPath .stuck none)).path 2).state = .stuck ∧ 1 ≤ 1 ∧ 16 ≤ 16
      ∧ (run.path 2).state = .isolated ∧ (run.hold 2).empty = true ∧ ((with3 closedPath).path 2).state ≠ .isolated
      ∧ ((run.setHold 2 { Hold.reset with manual := true }).hold 2).empty = false := by decide +kernel

theorem witness_HoldConsequencesFollowTheirTable :
    let s := fun n : Nat => run.setHold 2 { Hold.reset with retryCount := n, voltageRecheck := some 60 }
    (s 2).settings = some cfg ∧ (s 2).present 11 = false ∧ (s 2).present 2 = true
      ∧ ((s 2).hold 2).retryCount < cfg.retryBudget ∧ cfg.retryBudget ≤ ((s 3).hold 2).retryCount := by decide +kernel

theorem witness_DeclarationReachesLogHoldsAndSequencer :
    let s := fun records => { run with flg := ⟨records, 65535, 255⟩ }
    let open' := (List.range 32).map fun n => record (n + 1) none
    run.settings = some cfg ∧ (fastFault cfg 2 .overcurrent 1500).isolationStart = none
      ∧ (s (open'.take 31)).flg.records.length < 32 ∧ 32 ≤ (s open').flg.records.length
      ∧ (s open').flg.records = record 1 none :: open'.drop 1 ∧ (∀ q ∈ (s open').flg.records, q.ackBy = none)
      ∧ (s (record 1 (some 9) :: open'.drop 1)).flg.records = [] ++ record 1 (some 9) :: open'.drop 1
      ∧ 32 ≤ (s (record 1 (some 9) :: open'.drop 1)).flg.records.length ∧ (record 1 (some 9)).ackBy ≠ none
      ∧ (fastFault cfg 2 .overcurrent 1500).demand = some 8 := by decide +kernel

theorem witness_TimedHoldsEndAndVoltageIsCheckedAgain :
    let s := fun (bus : Nat) (h : Hold) => { run.setHold 2 h with sfe := { run.sfe with bus := bus } }
    let retry := { Hold.reset with retryUntil := some 20 }
    let startup := { Hold.reset with startupUntil := some 20 }
    let wait := { Hold.reset with voltageRecheck := some 20 }
    (s 0 retry).settings = some cfg ∧ reached ((s 0 retry).arrive 0).nowMs 20 = true
      ∧ ((s 0 retry).hold 2).retryUntil = some 20 ∧ ((s 0 startup).hold 2).startupUntil = some 20
      ∧ ({ startup with startupUntil := none, lockout := true } : Hold).empty = false
      ∧ ((with3 closedPath).path 2).state ≠ .isolated ∧ cfg.strings[(11 : StringIdx)].present = false
      ∧ ({ retry with retryUntil := none } : Hold).empty = true ∧ ((s 80 retry).path 2).state = .isolated
      ∧ cfg.strings[(2 : StringIdx)].present = true ∧ near (s 80 retry) = true ∧ near (s 81 retry) = false
      ∧ ((s 80 wait).hold 2).voltageRecheck = some 20
      ∧ (wait.lockout = false ∧ wait.manual = false ∧ wait.shutdown = false ∧ wait.startupUntil = none ∧ wait.retryUntil = none)
      ∧ ((s 80 wait).path 2).state = .isolated ∧ near (s 80 wait) = true ∧ near (s 81 wait) = false
      ∧ ((s 80 { wait with lockout := true }).hold 2).lockout = true := by decide +kernel

theorem witness_MaskChangesWriteTheLockoutPage :
    let s := run
    let t := holdConsequence cfg 2 .lockout s
    let u := holdConsequence cfg 2 .nothing s
    t.lockoutMask ≠ s.lockoutMask ∧ s.nvs.write = none ∧ (inSession (some (someWrite .program 0))).nvs.write ≠ none
      ∧ u.lockoutMask = s.lockoutMask ∧ u.manualMask = s.manualMask := by decide +kernel

/-- A run with rivals of the stations 1 to n. -/
def rivalled (n : Nat) (contest : Contest) : State :=
  { inContest contest with acu := { Acu.reset with contest := contest, rivals := (List.range n).map fun k => ⟨k + 1, 1, 20⟩ } }

theorem witness_RivalClaimsAreListedAndCompared :
    let sound := fun (round outcome hi lo string : Byte) => (round = 1 ∨ round = 2) ∧ (outcome = 1 ∨ outcome = 2)
      ∧ hi.toNat * 256 + lo.toNat ≤ 1023 ∧ 1 ≤ string.toNat ∧ string.toNat ≤ 12
    [(1 : Byte), 1, 0, 0].length ≠ 5 ∧ 4 ≠ cfg.feeder ∧ cfg.feeder = 3 ∧ ¬ sound 3 1 0 0 1 ∧ ¬ sound 1 1 4 0 1 ∧ ¬ sound 1 1 0 0 13
      ∧ sound 1 2 3 255 12 ∧ (∃ r ∈ (rivalled 8 .idle).acu.rivals, r.station = 8)
      ∧ (∀ r ∈ (rivalled 8 .idle).acu.rivals, r.station ≠ 9) ∧ 8 ≤ (rivalled 8 .idle).acu.rivals.length
      ∧ (∀ r ∈ (rivalled 7 .idle).acu.rivals, r.station ≠ 9) ∧ (rivalled 7 .idle).acu.rivals.length < 8
      ∧ (rivalled 7 (.contest 1 peak 2 120 none)).acu.contest = .contest 1 peak 2 120 none := by decide +kernel

theorem witness_RivalClaims_outside_a_contest :
    ∀ n own chosen windowEnd best, (rivalled 8 .idle).acu.contest ≠ .contest n own chosen windowEnd best := nofun

theorem witness_ContestWindowEndDecides :
    let s := inContest (.contest 1 peak 2 20 (some ⟨3, 500⟩))
    let isBeaten := fun r : BestRival => decide (peak.score < r.score) || (decide (r.score = peak.score) && decide (r.station < cfg.station))
    s.settings = some cfg ∧ s.acu.contest = .contest 1 peak 2 20 (some ⟨3, 500⟩) ∧ reached (s.arrive 0).nowMs 20 = true
      ∧ isBeaten ⟨3, 500⟩ = true ∧ isBeaten ⟨62, 501⟩ = true ∧ isBeaten ⟨5, 500⟩ = false
      ∧ (s.path 2).connected = true ∧ (s.path 0).connected = false ∧ chooseString peak.shares s.replacementCandidate = some 2
      ∧ chooseString peak.shares (s.setPath 2 Path.reset).replacementCandidate = none ∧ s.acu.latch = false := by decide +kernel

theorem witness_ContestDeadlinesEndTheirStates :
    let s := fun (contest : Contest) (score : Nat) => { inContest contest with sfe := { run.sfe with score := score } }
    (s .idle 0).settings = some cfg ∧ (s (.yielded 1 (some 20) none) 400).acu.contest = .yielded 1 (some 20) none
      ∧ reached ((s .idle 0).arrive 0).nowMs 20 = true ∧ (s (.yielded 1 (some 20) none) 400).sfe.score ≤ cfg.arcThreshold
      ∧ cfg.arcThreshold < (s (.yielded 1 (some 20) none) 401).sfe.score
      ∧ chooseString (s .idle 401).sfe.shares (s .idle 401).arcCandidate = some 2
      ∧ chooseString (s .idle 401).sfe.shares ((s .idle 401).setPath 2 Path.reset).arcCandidate = none
      ∧ (s (.yielded 1 none (some 20)) 0).acu.contest = .yielded 1 none (some 20)
      ∧ reached ((s .idle 0).arrive 500000).nowMs (20 + ms 500) = true ∧ (s (.settle 20) 0).acu.contest = .settle 20 := by decide +kernel

theorem witness_ReceiverTakesBytes :
    let s := fun (rx : RxState) (n : Nat) => taking rx (List.replicate n 0)
    (s .gapWait 0).settings = some cfg ∧ (s .gapWait 0).abu.tx ≠ .sending ∧ (s .gapWait 0).abu.rx = .gapWait
      ∧ (s .ready 0).abu.rx ≠ .gapWait ∧ ((0x21 : Byte) = 0x21) ∧ ¬ ((0x22 : Byte) = 0x21 ∨ (0x22 : Byte) = 0x2A
        ∨ (0x22 : Byte) = 0x31 ∨ (0x22 : Byte) = 0x32)
      ∧ (s .header 1).abu.taken.length = 1 ∧ (1 : Byte).toNat = 1 ∧ (62 : Byte).toNat ≤ 62 ∧ 62 < (63 : Byte).toNat
      ∧ (s .header 2).abu.taken.length = 2 ∧ (s .header 3).abu.taken.length = 3 ∧ (s .header 4).abu.taken.length = 4
      ∧ (120 : Byte).toNat ≤ 120 ∧ 120 < (121 : Byte).toNat ∧ (s .body 5).abu.rx = .body ∧ 5 ≤ (s .body 5).abu.taken.length
      ∧ (s .body 5).abu.taken.length + 1 ≠ 5 + ((s .body 5).abu.taken.getD 4 0).toNat + 2 := by decide +kernel

/-- The bytes of an empty REPLY of a station to station 9. -/
def emptyReply (source : Byte) : List Byte := [0x32, source, 9, 3, 0] ++ be16 (crc16 [0x32, source, 9, 3, 0]).toNat

theorem witness_TelegramCompletesOnItsCheckValue :
    let s := fun source : Byte => taking .body ((emptyReply source).take 6)
    let agrees := fun (source b : Byte) => ((s source).abu.taken ++ [b]).drop ((s source).abu.taken.length - 1)
      = be16 (crc16 (((s source).abu.taken ++ [b]).take ((s source).abu.taken.length - 1))).toNat
    (s 4).settings = some cfg ∧ (s 4).arrive 0 = s 4 ∧ (s 4).abu.rx = .body ∧ (s 4).abu.tx ≠ .sending ∧ 5 ≤ (s 4).abu.taken.length
      ∧ (s 4).abu.taken.length + 1 = 5 + ((s 4).abu.taken.getD 4 0).toNat + 2
      ∧ agrees 4 ((emptyReply 4).getD 6 0) ∧ ¬ agrees 4 ((emptyReply 4).getD 6 0 + 1)
      ∧ ((s 4).abu.taken.getD 1 0).toNat = cfg.station ∧ (s 4).abu.silent = false
      ∧ agrees 5 ((emptyReply 5).getD 6 0) ∧ ((s 5).abu.taken.getD 1 0).toNat ≠ cfg.station := by decide +kernel

theorem witness_DeliveryFollowsKindAndDestination :
    let request : Telegram := ⟨0x31, 60, 4, 3, [4, 17, 0]⟩
    let reply : TxEntry := ⟨.reply, 60, [7, 1, 2], 0, false, false⟩
    request.source ≠ cfg.station ∧ run.abu.silent = false ∧ (⟨0x32, 60, 4, 3, []⟩ : Telegram).kind = 0x32
      ∧ (⟨0x31, 60, 9, 3, []⟩ : Telegram).dest ≠ cfg.station ∧ (⟨0x31, 60, 0, 3, []⟩ : Telegram).dest = 0 ∧ cfg.station ≠ 0
      ∧ request.kind = 0x31 ∧ request.dest = cfg.station
      ∧ (3 ≤ request.body.length ∧ 1 ≤ (request.body.getD 0 0).toNat ∧ (request.body.getD 0 0).toNat ≤ 7)
      ∧ ¬ 3 ≤ ([4, 17] : List Byte).length ∧ ¬ ((8 : Byte).toNat ≤ 7) ∧ ¬ (1 ≤ (0 : Byte).toNat)
      ∧ (∀ e ∈ run.abu.queue, ¬ (e.kind = .reply ∧ e.dest = request.source))
      ∧ (sending .waiting none reply).abu.queue = [] ++ reply :: [] ∧ reply.kind = .reply ∧ reply.dest = request.source
      ∧ (⟨0x21, 60, 0, 3, []⟩ : Telegram).kind = 0x21 ∧ rivalClaim.kind = 0x2A ∧ rivalClaim.dest = 0
      ∧ ({ run.abu with silent := true } : Abu).silent = true ∧ request.kind ≠ 0x2A := by decide +kernel

/-- A run with peers of the stations 10 to 9 + n, heard at a moment. -/
def peered (n : Nat) (digest : Option Ms) : State :=
  { run with ptb := ⟨(List.range n).map fun k => ⟨10 + k, 3, 20, digest, []⟩, 0⟩ }

theorem witness_DigestsUpdateAdmitOrOverflow :
    let body : List Byte := [0, 7, 2, 0, 12, 3, 0xF0, 0x60, 7, 0, 0, 0, 0]
    let old := { peered 24 (some 20) with timeUs := 19240000 }
    parseDigest 15 body = some [⟨0, 12, some (-4000), true⟩, ⟨7, 0, none, false⟩]
      ∧ parseDigest 16 body = none ∧ parseDigest 15 (body.set 4 13) = none ∧ parseDigest 15 (body.set 8 0) = none
      ∧ parseDigest 15 (body.take 12) = none ∧ parseDigest 15 (body.set 10 2) = none
      ∧ (∃ e ∈ (peered 24 none).ptb.entries, e.station = 33) ∧ (∀ e ∈ (peered 24 none).ptb.entries, e.station ≠ 34)
      ∧ (peered 23 none).ptb.entries.length < 24 ∧ 24 ≤ (peered 24 none).ptb.entries.length
      ∧ ascending ((peered 24 none).ptb.entries.map PeerEntry.station) = true
      ∧ (∀ e ∈ (peered 24 none).ptb.entries, e.lastHeard = 20 ∧ 10 ≤ e.station)
      ∧ since (peered 24 (some 20)).nowMs 20 ≤ 2 * (64 * cfg.sampleInterval)
      ∧ ¬ since old.nowMs 20 ≤ 2 * (64 * cfg.sampleInterval) := by decide +kernel

theorem witness_OffersTakeTheirPlaceInTheQueue :
    let reply : TxEntry := ⟨.reply, 9, [7, 1, 2], 0, false, false⟩
    let a := fun (tx : TxState) (rx : RxState) (deferral : Option Deferral) (n : Nat) =>
      { run.abu with tx := tx, rx := rx, deferral := deferral, queue := List.replicate n reply }
    State.reset.settings = none ∧ run.settings = some cfg ∧ run.abu.silent = false
      ∧ (∃ e ∈ (a .waiting .ready none 1).queue, e.kind = .reply) ∧ (∀ e ∈ (a .waiting .ready none 8).queue, e.kind ≠ .digest)
      ∧ 8 ≤ (a .waiting .ready none 8).queue.length ∧ (a .waiting .ready none 7).queue.length < 8
      ∧ (a .empty .ready none 0).queue = [] ∧ (a .empty .gapWait none 0).rx ≠ .ready
      ∧ (a .deferring .ready none 1).deferral = none ∧ (a .deferring .ready (some ⟨20000, 19⟩) 1).deferral = some ⟨20000, 19⟩
      ∧ 20000 < 20000 + 200 * 1 ∧ 20000 + 200 * 0 ≤ 20000 := by decide +kernel

theorem witness_IdleGapBeginsADeferralThatSends :
    let reply : TxEntry := ⟨.reply, 9, [7, 1, 2], 0, false, false⟩
    let s := fun (queue : List TxEntry) => { run with timeUs := 640, abu := { run.abu with
      tx := if queue.isEmpty then .empty else .waiting, queue := queue } }
    let t := sending .deferring (some ⟨20000, 19⟩) reply
    (s []).settings = some cfg ∧ (s []).abu.tx ≠ .sending ∧ (s []).abu.rx ≠ .ready ∧ (s []).abu.lastByteEnd + 640 ≤ ((s []).arrive 0).timeUs
      ∧ (s []).abu.queue = [] ∧ (s [reply]).abu.queue = [reply] ∧ reply.kind ≠ .arcClaim ∧ (s [reply]).abu.tx ≠ .sending
      ∧ (s [{ reply with kind := .arcClaim }]).abu.queue = [{ reply with kind := .arcClaim }]
      ∧ t.settings = some cfg ∧ t.abu.tx = .deferring ∧ t.abu.rx = .ready ∧ t.abu.deferral = some ⟨20000, 19⟩
      ∧ 20000 + 200 * 19 ≤ (t.arrive 3800).timeUs ∧ t.abu.queue = [reply] ∧ (t.arrive 3799).timeUs < 20000 + 200 * 19 := by decide +kernel

theorem witness_TransmissionEndsByCompletionOrCollision :
    let s := { sending .sending none ⟨.reply, 9, [7, 1, 2], 7, true, false⟩ with
      abu := { (sending .sending none ⟨.reply, 9, [7, 1, 2], 7, true, false⟩).abu with frame := [1, 2], readBack := 0 } }
    let t := { s with abu := { s.abu with readBack := 1 } }
    (s.arrive 160).abu.tx = .sending ∧ s.settings ≠ none ∧ s.abu.frame[s.abu.readBack]? ≠ some 2 ∧ s.abu.frame[s.abu.readBack]? = some 1
      ∧ s.abu.readBack + 1 ≠ s.abu.frame.length ∧ t.abu.tx = .sending ∧ t.abu.frame[t.abu.readBack]? = some 2
      ∧ t.abu.readBack + 1 = t.abu.frame.length := by decide +kernel

theorem witness_RequestsFailTheirChecksInOrder :
    let s := fun (source : Nat) (body : List Byte) => { run with requests := [⟨source, body⟩] }
    let operator := fun source : Nat => source ≠ 0 ∧ source ∈ cfg.operators
    ((s 60 [1, 17, 2, 0, 1]).arrive 0).settings = some cfg ∧ State.reset.settings = none ∧ run.requests = [] ∧ (s 60 [1, 17, 2, 0, 1]).requests = [⟨60, [1, 17, 2, 0, 1]⟩]
      ∧ ¬ operator 61 ∧ ¬ operator 0 ∧ operator 60 ∧ operator 9
      ∧ ([1, 17, 2, 0, 1] : List Byte).getD 0 0 = 1 ∧ ¬ ((([1, 17, 2, 0] : List Byte).getD 2 0).toNat = 2
        ∧ ([1, 17, 2, 0] : List Byte).length = 3 + 2)
      ∧ (([4, 17, 1, 0] : List Byte).getD 2 0).toNat ≠ 0 ∧ (([4, 17, 0] : List Byte).getD 0 0).toNat ≠ 1 := by decide +kernel

theorem witness_IsolateHoldsAndOpensTheNamedStrings :
    let s := { with3 closedPath with requests := [⟨9, [1, 17, 2, 0x0F, 0xFF]⟩] }
    s.settings = some cfg ∧ s.requests = [⟨9, [1, 17, 2, 0x0F, 0xFF]⟩] ∧ 9 ≠ 0 ∧ 9 ∈ cfg.operators
      ∧ (0x0F : Byte).toNat * 256 + (0xFF : Byte).toNat < 4096 ∧ 4096 ≤ (0x10 : Byte).toNat * 256 + (0 : Byte).toNat
      ∧ (0 : Byte).toNat * 256 + (0 : Byte).toNat = 0 := by decide +kernel

theorem witness_ReleaseFollowsItsConditions :
    let s := { run with requests := [⟨9, [2, 17, 3, 0x0F, 0xFF, 1]⟩] }
    let released := { run with sfe := { run.sfe with bus := 80 } }.setHold 2 { Hold.reset with lockout := true }
      |>.setHold 3 { Hold.reset with shutdown := true } |>.setHold 4 { Hold.reset with startupUntil := some 60 }
    let closed := { with3 closedPath with flg := ⟨[{ record 1 none with string := 1 }], 2, 0⟩ }
    s.settings = some cfg ∧ s.requests = [⟨9, [2, 17, 3, 0x0F, 0xFF, 1]⟩] ∧ 9 ≠ 0 ∧ 9 ∈ cfg.operators
      ∧ 4096 ≤ (0x10 : Byte).toNat * 256 ∧ 1 < (2 : Byte).toNat ∧ (0x0F : Byte).toNat * 256 + (0xFF : Byte).toNat < 4096
      ∧ cfg.strings[(11 : StringIdx)].present = false ∧ ((with3 (lowPath .stuck none)).path 2).state = .stuck
      ∧ (closed.path 2).state ≠ .isolated ∧ (closed.path 1).state = .isolated
      ∧ ((closed.flg.records.filter fun r => decide (r.string = 1)).getLast?).any (fun r => r.ackBy.isNone) = true
      ∧ (released.hold 2).shutdown = false ∧ (released.hold 2).startupUntil = none ∧ (released.hold 3).shutdown = true
      ∧ (released.hold 4).startupUntil = some 60 ∧ near released = true ∧ near { released with sfe := { run.sfe with bus := 81 } } = false := by decide +kernel

theorem witness_AcknowledgeCoversTheLogUpToS :
    let s := { run with requests := [⟨9, [3, 17, 2, 0xFF, 0xFF]⟩], flg := ⟨[record 65534 none, record 65535 none, record 1 none], 2, 1⟩ }
    s.settings = some cfg ∧ s.requests = [⟨9, [3, 17, 2, 0xFF, 0xFF]⟩] ∧ 9 ≠ 0 ∧ 9 ∈ cfg.operators
      ∧ (0 : Byte).toNat * 256 + (0 : Byte).toNat = 0 ∧ (0xFF : Byte).toNat * 256 + (0xFF : Byte).toNat = 65535
      ∧ (∀ r ∈ s.flg.records, r.seq ≠ 2) ∧ s.flg.records = [record 65534 none] ++ record 65535 none :: [record 1 none]
      ∧ (∀ q ∈ [record 65534 none] ++ [record 1 none], q.seq ≠ 65535) := by decide +kernel

theorem witness_ReadsReportTheStateAsItStands :
    let s := fun body : List Byte => { run with requests := [⟨1, body⟩], flg := ⟨[record 7 none, record 8 none], 9, 0⟩ }
    (s [4, 17, 0]).settings = some cfg ∧ (s [4, 17, 0]).requests = [⟨1, [4, 17, 0]⟩]
      ∧ (s [5, 17, 2, 8, 5]).requests = [⟨1, [5, 17, 2, 8, 5]⟩] ∧ (5 : Byte).toNat ≤ 5 ∧ (8 : Byte).toNat + (5 : Byte).toNat ≤ 13
      ∧ 13 < (9 : Byte).toNat + (5 : Byte).toNat ∧ 5 < (6 : Byte).toNat ∧ 12 < (13 : Byte).toNat
      ∧ (s [6, 17, 3, 0, 8, 8]).requests = [⟨1, [6, 17, 3, 0, 8, 8]⟩] ∧ 8 < (9 : Byte).toNat ∧ (8 : Byte).toNat ≤ 8
      ∧ (∀ r ∈ (s []).flg.records, r.seq ≠ 9) ∧ (s []).flg.records = [record 7 none] ++ [record 8 none]
      ∧ ([record 8 none].head?.map FaultRecord.seq) = some 8 ∧ (∀ r ∈ [record 7 none], r.seq ≠ 8)
      ∧ (s [7, 17, 0]).requests = [⟨1, [7, 17, 0]⟩] := by decide +kernel

theorem witness_ReportsAndRecordsFollowTheirLayouts :
    let s := { run with rfu := { run.rfu with groups := run.rfu.groups.set 2 (some ⟨5, none, false⟩) } }
    let r := record 65535 (some 62)
    r.seq ≤ 65535 ∧ r.seconds < 2 ^ 32 ∧ -32768 ≤ r.detail ∧ r.detail ≤ 32767 ∧ -32768 ≤ r.reference.getD 0 ∧ r.reference.getD 0 ≤ 32767
      ∧ r.contributors.getD 0 ≤ 255 ∧ r.ackBy.getD 0 ≤ 255
      ∧ cfg.strings[(0 : StringIdx)].present = true ∧ cfg.strings[(7 : StringIdx)].group ≤ 15 ∧ cfg.strings[(7 : StringIdx)].weight ≤ 65535
      ∧ cfg.strings[(11 : StringIdx)].present = false ∧ 8 ≤ cfg.strings[(7 : StringIdx)].group
      ∧ cfg.strings[(0 : StringIdx)].group = (2 : Fin 8).val ∧ run.rfu.groups[(2 : Fin 8)] = none
      ∧ s.rfu.groups[(2 : Fin 8)] = some ⟨5, none, false⟩ ∧ (run.adjOf 2).strikes ≤ 31 ∧ (run.hold 2).retryCount ≤ 7
      ∧ ((with3 closedPath).path 2).level ≤ 255 := by decide +kernel

theorem witness_WritesCompleteWithTheirContent :
    let w := fun kind : WriteKind => (⟨kind, 0, List.replicate 64 7, 20, true⟩ : Write)
    let s := fun (kind : WriteKind) (mask : Bool) => { run with nvs := { run.nvs with write := some (w kind), pendingMask := mask } }
    (s .program true).nvs.write = some (w .program) ∧ (s .erase false).nvs.write = some (w .erase)
      ∧ (s .sealing false).nvs.write = some (w .sealing) ∧ (s .lockoutPage true).nvs.write = some (w .lockoutPage)
      ∧ reached ((s .erase true).arrive 0).nowMs 20 = true ∧ (s .program true).nvs.pendingMask = true
      ∧ (s .program false).nvs.pendingMask = false ∧ 63 / 64 = 0 ∧ 127 / 64 ≠ 0 ∧ 191 / 64 = 2 := by decide +kernel

/-- What the statements on an open session ask of a state. -/
def sessionOpen (s : State) (dt : Nat) : Bool :=
  decide (s.svl.session = .opened) && s.svl.receiving.isEmpty && !s.svl.skipping && decide (since (s.arrive dt).nowMs s.svl.lastByte < 10000)

theorem witness_ServiceReadsAndLoadBuffer :
    sessionOpen (inSession none) 9979999 = true ∧ (3 : Byte).toNat ≤ 3 ∧ 3 < (4 : Byte).toNat
      ∧ ({ inSession none with paths := (with3 closedPath).paths } : State).presentIsolated = false
      ∧ (inSession none).presentIsolated = true ∧ (inSession none).nvs.write = none
      ∧ (inSession (some ⟨.program, 0, [], 26, true⟩)).nvs.write ≠ none ∧ (List.replicate 64 (0 : Byte)).length = 64 := by decide +kernel

theorem witness_ProgrammingCommandsBeginTheirWrites :
    let s := fun (page : Nat) (isSealed : Bool) (store : Memory) =>
      { inSession none with
        svl := { (inSession none).svl with loadedPage := page }, nvs := { run.nvs with sealSet := isSealed, store := store } }
    sessionOpen (s 1 false []) 0 = true ∧ (s 1 false []).presentIsolated = true ∧ (s 1 false []).nvs.write = none
      ∧ ({ inSession none with paths := (with3 closedPath).paths } : State).presentIsolated = false
      ∧ (inSession (some ⟨.program, 0, [], 26, true⟩)).presentIsolated = true
      ∧ 2 ≤ (s 2 false []).svl.loadedPage ∧ (s 1 false []).svl.loadedPage < 2 ∧ (s 1 true []).nvs.sealSet = true
      ∧ ({ inSession none with svl := { (inSession none).svl with restart := some 5 } } : State).svl.restart = some 5
      ∧ (s 1 false []).svl.restart = none ∧ offendingField (s 1 false []).nvs.store ≠ 0 ∧ offendingField (s 1 false commissioned.nvs.store).nvs.store = 0 := by decide +kernel

theorem witness_SessionOpensAndEnds :
    let s := fun (session : Session) (last : Ms) => { run with svl := { run.svl with session := session, lastByte := last } }
    (s .none 20).svl.session = .none ∧ (s .none 20).svl.receiving = [] ∧ (s .none 20).svl.skipping = false
      ∧ sessionOpen (s .opened 20) 9999999 = true ∧ (0 : Byte) ∉ serviceCommandBytes
      ∧ 100 ≤ since ((s .opened 20).arrive 100000).nowMs 20 ∧ since ((s .entry3 20).arrive 99999).nowMs 20 < 100
      ∧ (s .entry3 20).svl.session = .entry3 ∧ (s .opened 20).svl.session ≠ .none
      ∧ 10000 ≤ since ((s .opened 20).arrive 10000000).nowMs 20 ∧ (inSession none).nvs.write = none
      ∧ (inSession (some ⟨.program, 0, [], 26, true⟩)).nvs.write = some ⟨.program, 0, [], 26, true⟩ := by decide +kernel

/-- A machine about to take a POWER_ON: it meets each of the conditions that the steps keep, and its step has a next state. -/
def stepping : State := { State.reset with pending := [.powerOn false] }

theorem witness_StepKeepsPathRecordsWhole :
    stepping.pathsOk = true ∧ step stepping = .next (after (step stepping)) := ⟨by decide +kernel, rfl⟩

theorem witness_StepKeepsTheBoxTripLine :
    stepping.tripOk = true ∧ step stepping = .next (after (step stepping)) := ⟨by decide +kernel, rfl⟩

theorem witness_StepKeepsHoldsInOrder :
    stepping.holdsOk = true ∧ step stepping = .next (after (step stepping)) := ⟨by decide +kernel, rfl⟩

theorem witness_StepKeepsTheTransmitQueueLegal :
    stepping.abu.queueOk = true ∧ stepping.abu.tally.ok = true ∧ step stepping = .next (after (step stepping)) :=
  ⟨by decide +kernel, by decide +kernel, rfl⟩

theorem witness_StepKeepsTheFaultLogInOrder :
    stepping.flg.ok = true ∧ step stepping = .next (after (step stepping)) := ⟨by decide +kernel, rfl⟩

theorem witness_StepKeepsStoreAndTables :
    step stepping = .next (after (step stepping)) ∧ Memory.wf stepping.nvs.store = true ∧ stepping.peersOk = true
      ∧ stepping.rivalsOk = true ∧ stepping.strikesOk = true ∧ stepping.wac.ok = true :=
  ⟨rfl, by decide +kernel, by decide +kernel, by decide +kernel, by decide +kernel, by decide +kernel⟩

end Sys2Proof.Tests
end

section
/-! Proofs: what a due protection tick writes of its inputs (R1 to R5, R147). -/

namespace Sys2Proof.Machine

/-! ### The latest values (R2 to R5) -/

/-- The tick sample set, value by value. -/
@[simp] theorem sfeTake_fields (raw : RawInputs) (x : Sfe) :
    (∀ i : StringIdx, (x.take raw).currents[i] = calibrateCurrent x.trims[i] raw.currents[i]) ∧
    (∀ i : StringIdx, (x.take raw).voltages[i] = calibrateVoltage raw.voltages[i]) ∧
    (∀ i : StringIdx, (x.take raw).shares[i] = raw.shares[i].toNat) ∧
    (x.take raw).total = calibrateTotal x.totalTrim raw.total ∧ (x.take raw).bus = calibrateVoltage raw.bus ∧
    (x.take raw).score = raw.score.toNat ∧ (x.take raw).nextTick = x.nextTick + 10000 ∧
    (x.take raw).trims = x.trims ∧ (x.take raw).totalTrim = x.totalTrim := by
  simp [Sfe.take]

/-- A 12-bit code reads at most 2399 (R4). -/
theorem calibrateVoltage_le (raw : BitVec 12) : calibrateVoltage raw ≤ 2399 := by
  have := raw.isLt
  unfold calibrateVoltage
  omega

/-- With the neutral pair the greatest raw total reads the upper limit and the least raw total the lower one (R3). -/
theorem calibrateTotal_limits {t : Trim} (offset : t.offset = 0) (gain : t.gain = 1024) :
    calibrateTotal t 4095 = 24000 ∧ calibrateTotal t 0 = -24000 := by
  simp [calibrateTotal, offset, gain, clampInt]

/-- The product of a trimmed code and a gain trim stays within 2111 × 1088 (R2). -/
theorem trimmed_mul_gain_natAbs_le (raw : BitVec 12) {offset : Int} {gain : Nat} (low : -64 ≤ offset) (high : offset ≤ 63)
    (gainHigh : gain ≤ 1088) : (((raw.toNat : Int) - 2048 - offset) * gain).natAbs ≤ 2296768 := by
  have code := raw.isLt
  have difference : ((raw.toNat : Int) - 2048 - offset).natAbs ≤ 2111 := by omega
  calc (((raw.toNat : Int) - 2048 - offset) * gain).natAbs
      = ((raw.toNat : Int) - 2048 - offset).natAbs * gain := by rw [Int.natAbs_mul, Int.natAbs_natCast]
    _ ≤ 2111 * 1088 := Nat.mul_le_mul difference gainHigh

/-! ### The command (R1, R147) -/

theorem exec_protectionTick (dt : Nat) (raw : RawInputs) (order : TickOrder) (s : State) :
    exec (.protectionTick dt raw order) s = execProtectionTick dt raw order s := rfl

/-- The reading of the inputs writes the sample set and the shutdown input's level. -/
@[simp] theorem readInputs_writes (raw : RawInputs) (s : State) :
    (readInputs raw s).sfe = s.sfe.take raw ∧ (readInputs raw s).hld.input = raw.shutdown := by
  simp [readInputs]

/-- In every station mode a due tick leaves the sample set it has formed as the latest values, and the input's level as read: what is
taken before the reading and what the consumers do after it change neither. -/
theorem protectionTick_of_due {dt : Nat} {raw : RawInputs} {order : TickOrder} {s : State}
    (due : (s.arrive dt).sfe.nextTick ≤ (s.arrive dt).timeUs) :
    ∃ t, exec (.protectionTick dt raw order) s = .next t ∧ t.sfe = (s.arrive dt).sfe.take raw ∧ t.hld.input = raw.shutdown := by
  rw [exec_protectionTick, execProtectionTick]
  dsimp only
  rw [if_pos due]
  split
  case h_1 => exact ⟨_, rfl, by simp, by simp⟩
  case h_2 => exact ⟨_, rfl, by simp, by simp⟩

end Sys2Proof.Machine

namespace Sys2Proof.Proofs

open Sys2Proof Sys2Proof.Machine

/-- Settles O10: the calibrations of the set that a due tick forms, the bounds of R2's product, and the two extreme products. -/
theorem tickTakesEveryInput : Obligations.TickTakesEveryInput := by
  refine ⟨fun dt raw order start => ?_, fun raw offset gain low high _ gainHigh => ?_, by decide⟩
  · intro s due
    obtain ⟨t, run, sfe, input⟩ := protectionTick_of_due (raw := raw) (order := order) due
    obtain ⟨currents, voltages, shares, total, bus, score, nextTick, trims, totalTrim⟩ := sfeTake_fields raw s.sfe
    rw [← sfe] at currents voltages shares total bus score nextTick trims totalTrim
    refine ⟨t, run, currents, total, fun offset gain => ⟨?_, ?_⟩, fun i => ⟨voltages i, ?_, shares i⟩, bus, ?_, score, input,
      nextTick, trims, totalTrim⟩
    · intro code
      rw [total, code, (calibrateTotal_limits offset gain).1]
    · intro code
      rw [total, code, (calibrateTotal_limits offset gain).2]
    · rw [voltages i]
      exact calibrateVoltage_le _
    · rw [bus]
      exact calibrateVoltage_le _
  · have product := trimmed_mul_gain_natAbs_le raw low high gainHigh
    refine ⟨product, ?_⟩
    rw [Int.natAbs_tdiv]
    exact Nat.le_of_lt_succ (Nat.div_lt_of_lt_mul (by omega))

end Sys2Proof.Proofs
end

section
/-! Proofs: the means of a closed window, its box sum check, and what the accumulator holds after the step of the close (R12 to R16). -/

namespace Sys2Proof.Machine

/-! ### Rounded division (R13) -/

/-- The quotient lies within half a divisor of the number, and in a tie it is the one further from zero. -/
theorem roundDiv_nearest (n : Int) {d : Nat} (pos : 0 < d) :
    (2 * roundDiv n d * d - 2 * n).natAbs ≤ d ∧
      ((2 * roundDiv n d * d - 2 * n).natAbs = d → n.natAbs < (roundDiv n d * d).natAbs) := by
  have division := Nat.div_add_mod (2 * n.natAbs + d) (2 * d)
  have remainder := Nat.mod_lt (2 * n.natAbs + d) (y := 2 * d) (by omega)
  unfold roundDiv
  generalize (2 * n.natAbs + d) / (2 * d) = q at *
  generalize (2 * n.natAbs + d) % (2 * d) = r at *
  rw [Nat.mul_assoc, Nat.mul_comm d q] at division
  have product : (q : Int) * d = ((q * d : Nat) : Int) := by push_cast; rfl
  generalize q * d = p at *
  split_ifs with negative
  · rw [Int.mul_assoc, Int.neg_mul, product]
    omega
  · rw [Int.mul_assoc, product]
    omega

/-! ### The box sum check (R15, R16) -/

/-- A match: the means add up to the box mean within the tolerance. -/
theorem boxMatches_iff (means : PerString Int) (boxMean : Int) :
    boxMatches means boxMean = true ↔ (means.toList.sum - boxMean).natAbs ≤ max 20 (boxMean.natAbs * 30 / 1000) := by
  rw [boxMatches, decide_eq_true_iff, boxTolerance, List.sum_eq_foldl]

/-- The box measurement's validity with its mismatch run and its match run: what a check changes. -/
def Wac.boxRuns (w : Wac) : Bool × Nat × Nat := (w.boxValid, w.mismatchRun, w.matchRun)

section
variable {w : Wac}

/-- VALID, a match: the mismatch run ends. -/
theorem boxRuns_of_match_of_valid (valid : w.boxValid = true) : (w.boxChecked true).boxRuns = (true, 0, w.matchRun) := by
  simp [Wac.boxChecked, Wac.boxRuns, valid]

/-- VALID, a first mismatch: the run begins. -/
theorem boxRuns_of_first_mismatch (valid : w.boxValid = true) (run : w.mismatchRun = 0) :
    (w.boxChecked false).boxRuns = (true, 1, w.matchRun) := by
  simp [Wac.boxChecked, Wac.boxRuns, valid, run]

/-- VALID, a mismatch after another: the measurement turns INVALID and both runs start again. -/
theorem boxRuns_of_next_mismatch (valid : w.boxValid = true) (run : w.mismatchRun ≠ 0) :
    (w.boxChecked false).boxRuns = (false, 0, 0) := by
  simp [Wac.boxChecked, Wac.boxRuns, valid, run]

/-- INVALID, a mismatch: the match run ends. -/
theorem boxRuns_of_mismatch_of_invalid (invalid : w.boxValid = false) :
    (w.boxChecked false).boxRuns = (false, w.mismatchRun, 0) := by
  simp [Wac.boxChecked, Wac.boxRuns, invalid]

/-- INVALID, a first match: the run begins. -/
theorem boxRuns_of_first_match (invalid : w.boxValid = false) (run : w.matchRun = 0) :
    (w.boxChecked true).boxRuns = (false, w.mismatchRun, 1) := by
  simp [Wac.boxChecked, Wac.boxRuns, invalid, run]

/-- INVALID, a match after another: the measurement turns VALID and both runs start again. -/
theorem boxRuns_of_next_match (invalid : w.boxValid = false) (run : w.matchRun ≠ 0) :
    (w.boxChecked true).boxRuns = (true, 0, 0) := by
  simp [Wac.boxChecked, Wac.boxRuns, invalid, run]

end

/-! ### The accumulator closes and reopens (R13, R14) -/

/-- The close counts one window, modulo 65536, and leaves the countdown. -/
@[simp] theorem closeWindow_counters (w : Wac) :
    w.closeWindow.windowNumber = w.windowNumber + 1 ∧ w.closeWindow.countdown = w.countdown := by
  unfold Wac.closeWindow
  dsimp only
  split <;> simp

/-- With the path-change mark set no check is run. -/
theorem boxRuns_closeWindow_of_changed {w : Wac} (changed : w.endedChanged = true) : w.closeWindow.boxRuns = w.boxRuns := by
  simp [Wac.closeWindow, Wac.boxRuns, changed]

/-- Without the mark the check is run on the means of the close and the box mean. -/
theorem boxRuns_closeWindow_of_unchanged {w : Wac} (unchanged : ¬ w.endedChanged = true) :
    w.closeWindow.boxRuns = (w.boxChecked (boxMatches w.closeWindow.means w.boxMean)).boxRuns := by
  rw [means_closeWindow, Wac.closeWindow, if_neg unchanged]
  unfold Wac.boxChecked Wac.boxRuns
  dsimp only
  split_ifs <;> rfl

/-- The next window opens at 0, and the window's results stand. -/
@[simp] theorem openWindow_fields (w : Wac) :
    w.openWindow.sums = Vector.replicate 12 0 ∧ w.openWindow.boxSum = 0 ∧ w.openWindow.count = 0 ∧
    w.openWindow.windowNumber = w.windowNumber ∧ w.openWindow.countdown = w.countdown ∧ w.openWindow.means = w.means ∧
    w.openWindow.boxRuns = w.boxRuns :=
  ⟨rfl, rfl, rfl, rfl, rfl, rfl, rfl⟩

/-! ### The demands at the end of the step (R12) -/

/-- The accumulator without the open window's closed-throughout flags and path-change mark, which are all that a path change can write
of it. -/
def Wac.besidesMarks (w : Wac) : Wac := { w with closedThroughout := Vector.replicate 12 true, pathChanged := false }

/-- Two accumulators that differ in their marks alone agree in every other field that a window close is asked about. -/
theorem fields_of_besidesMarks {v w : Wac} (h : v.besidesMarks = w.besidesMarks) :
    v.sums = w.sums ∧ v.boxSum = w.boxSum ∧ v.count = w.count ∧ v.countdown = w.countdown ∧ v.windowNumber = w.windowNumber ∧
      v.means = w.means ∧ v.boxRuns = w.boxRuns := by
  simp only [Wac.besidesMarks, Wac.mk.injEq] at h
  simp [Wac.boxRuns, h]

theorem besidesMarks_changePath (i : StringIdx) (p : Path) (s : State) :
    (changePath i p s).wac.besidesMarks = s.wac.besidesMarks := by
  unfold changePath
  dsimp only
  split
  · simp
  · simp [notePathWac, Wac.besidesMarks]

theorem besidesMarks_takeDemands (s : State) : (takeDemands s).wac.besidesMarks = s.wac.besidesMarks :=
  foldl_keeps (fun u : State => u.wac.besidesMarks) _ (fun _ _ => besidesMarks_changePath _ _ _) _ _

theorem besidesMarks_endStep (demandsWait : Bool) (s : State) :
    (endStep demandsWait s).wac.besidesMarks = s.wac.besidesMarks := by
  unfold endStep
  split
  · rfl
  · exact besidesMarks_takeDemands s

/-! ### The command -/

theorem exec_windowClose (dt : Nat) (order : CloseOrder) (s : State) :
    exec (.windowClose dt order) s = execWindowClose dt order s := rfl

/-- A window close with all 64 samples leaves the accumulator closed and reopened, whoever judges the close first; the open demands of
the step can write the new window's marks. -/
theorem windowClose_of_full {dt : Nat} {order : CloseOrder} {s : State} {c : Settings}
    (settings : (s.arrive dt).settings = some c) (full : (s.arrive dt).wac.count = 64) :
    ∃ t, exec (.windowClose dt order) s = .next t ∧
      t.wac.besidesMarks = (s.arrive dt).wac.closeWindow.openWindow.besidesMarks := by
  refine ⟨endStep order.demandsWait (closeWindow c order (s.arrive dt)), ?_, ?_⟩
  · simp only [exec_windowClose, execWindowClose, settings, full, if_true]
  · rw [besidesMarks_endStep, wac_closeWindow]

/-- The fields of an accumulator that a close has left, whatever its marks. -/
theorem windowClose_fields {t : State} {w : Wac} (h : t.wac.besidesMarks = w.closeWindow.openWindow.besidesMarks) :
    t.wac.windowNumber = w.windowNumber + 1 ∧ t.wac.count = 0 ∧ t.wac.boxSum = 0 ∧ t.wac.countdown = w.countdown ∧
    (∀ i : StringIdx, t.wac.sums[i] = 0) ∧ (∀ i : StringIdx, t.wac.means[i] = roundDiv w.sums[i] 64) ∧
    t.wac.means = w.closeWindow.means ∧ t.wac.boxRuns = w.closeWindow.boxRuns := by
  obtain ⟨sums, boxSum, count, countdown, number, means, runs⟩ := fields_of_besidesMarks h
  refine ⟨by simp [number], by simp [count], by simp [boxSum], by simp [countdown], fun i => by simp [sums],
    fun i => by simp [means, means_closeWindow], by simp [means], by simp [runs]⟩

end Sys2Proof.Machine

namespace Sys2Proof.Proofs

open Sys2Proof Sys2Proof.Machine

/-- Settles O18: the fields of the closed and reopened accumulator, the rounding of the means, and the table of R16 row by row. -/
theorem windowCloseFormsMeansAndChecksTheBox : Obligations.WindowCloseFormsMeansAndChecksTheBox := by
  intro dt order start c s settings full mismatchRun matchRun
  obtain ⟨t, run, wac⟩ := windowClose_of_full (order := order) settings full
  obtain ⟨number, count, boxSum, countdown, sums, means, allMeans, runs⟩ := windowClose_fields wac
  refine ⟨t, run, number, count, boxSum, countdown, fun i => ⟨sums i, ?_⟩, ?_⟩
  · rw [means i]
    exact roundDiv_nearest _ (by decide : 0 < 64)
  · intro boxMean sum isMatch changed after
    have isMatch_iff : boxMatches s.wac.closeWindow.means s.wac.boxMean = true ↔ isMatch := by
      rw [← allMeans]
      exact boxMatches_iff _ _
    have checked (unchanged : ¬ changed) (b : Bool) (outcome : boxMatches s.wac.closeWindow.means s.wac.boxMean = b) :
        after = (s.wac.boxChecked b).boxRuns := by
      rw [← outcome]
      exact runs.trans (boxRuns_closeWindow_of_unchanged unchanged)
    have hit (unchanged : ¬ changed) (h : isMatch) := checked unchanged true (isMatch_iff.2 h)
    have miss (unchanged : ¬ changed) (h : ¬ isMatch) :=
      checked unchanged false (Bool.eq_false_iff.2 (mt isMatch_iff.1 h))
    exact ⟨fun h => runs.trans (boxRuns_closeWindow_of_changed h),
      fun h valid m => (hit h m).trans (boxRuns_of_match_of_valid valid),
      fun h valid m first => (miss h m).trans (boxRuns_of_first_mismatch valid first),
      fun h valid m next => (miss h m).trans (boxRuns_of_next_mismatch valid (by omega)),
      fun h invalid m => (miss h m).trans (boxRuns_of_mismatch_of_invalid invalid),
      fun h invalid m first => (hit h m).trans (boxRuns_of_first_match invalid first),
      fun h invalid m next => (hit h m).trans (boxRuns_of_next_match invalid (by omega))⟩

end Sys2Proof.Proofs
end

section
/-! Proofs: what the receiver makes of a byte, receive state by receive state (R24, R25, R40). -/

namespace Sys2Proof.Machine

/-! ### The checks of the header fields (R25) -/

/-- The first field is one of the four kinds. -/
theorem headerFieldOk_kind (b : Byte) : headerFieldOk 0 b = true ↔ b = 0x21 ∨ b = 0x2A ∨ b = 0x31 ∨ b = 0x32 := by
  simp only [headerFieldOk, isTelegramKind, Bool.or_eq_true, decide_eq_true_iff, or_assoc]
  rfl

/-- The second field is the source, a station number. -/
theorem headerFieldOk_source (b : Byte) : headerFieldOk 1 b = true ↔ 1 ≤ b.toNat ∧ b.toNat ≤ 62 := by
  simp [headerFieldOk]

/-- The third and the fourth field, destination and feeder, are taken as they come. -/
theorem headerFieldOk_unchecked {index : Nat} (h : index = 2 ∨ index = 3) (b : Byte) : headerFieldOk index b = true := by
  rcases h with rfl | rfl <;> rfl

/-- The fifth field is the body length. -/
theorem headerFieldOk_length (b : Byte) : headerFieldOk 4 b = true ↔ b.toNat ≤ 120 := by
  simp [headerFieldOk]

/-! ### One header byte (R24, R25) -/

section
variable {a : Abu} {b : Byte} {index : Nat}

/-- A field that passes, not the last one: the header goes on. -/
theorem headerByte_of_ok (count : a.taken.length = index) (more : index ≠ 4) (ok : headerFieldOk index b = true) :
    a.headerByte b = { a with rx := .header, taken := a.taken ++ [b] } := by
  subst count
  rw [Abu.headerByte, if_pos ok, if_neg (by omega)]

/-- In HEADER such a field leaves the state as it is. -/
theorem headerByte_of_header_of_ok (rx : a.rx = .header) (count : a.taken.length = index) (more : index ≠ 4)
    (ok : headerFieldOk index b = true) : a.headerByte b = { a with taken := a.taken ++ [b] } := by
  rw [headerByte_of_ok count more ok, ← rx]

/-- The body length passes: the body follows. -/
theorem headerByte_of_last_ok (count : a.taken.length = 4) (ok : headerFieldOk 4 b = true) :
    a.headerByte b = { a with rx := .body, taken := a.taken ++ [b] } := by
  rw [Abu.headerByte, count, if_pos ok, if_pos rfl]

/-- A field that fails: the header is ignored. -/
theorem headerByte_of_not_ok (count : a.taken.length = index) (fails : ¬ headerFieldOk index b = true) :
    a.headerByte b = a.ignoreHeader := by
  rw [Abu.headerByte, count, if_neg fails]

end

/-! ### A byte by receive state (R24) -/

/-- The length of the telegram stands in its fifth byte, and the bytes after that one do not change it. -/
theorem telegramLength_append {taken : List Byte} (header : 5 ≤ taken.length) (rest : List Byte) :
    telegramLength (taken ++ rest) = 5 + (taken.getD 4 0).toNat + 2 := by
  rw [telegramLength, promisedLength, List.getD_append _ _ _ _ header]

section
variable {c : Settings} {b : Byte} {stopError : Bool} {s : State}

/-- In GAP_WAIT a byte is passed over, with a stop error or without. -/
theorem classifyByte_of_gapWait (rx : s.abu.rx = .gapWait) : classifyByte c b stopError s = s := by
  simp only [classifyByte, rx]

/-- In each of the other states a stop error discards what was taken. -/
theorem classifyByte_of_stopError (rx : s.abu.rx ≠ .gapWait) (bad : stopError = true) :
    classifyByte c b stopError s = s.withAbu s.abu.discardByte := by
  cases state : s.abu.rx with
  | gapWait => exact absurd state rx
  | ready | header | body => simp only [classifyByte, state, bad, if_true]

/-- In READY a byte is the first one of a header. -/
theorem classifyByte_of_ready (rx : s.abu.rx = .ready) (good : stopError = false) :
    classifyByte c b stopError s = s.withAbu ({ s.abu with taken := [] }.headerByte b) := by
  simp [classifyByte, rx, good]

/-- In HEADER a byte is the next one of the header. -/
theorem classifyByte_of_header (rx : s.abu.rx = .header) (good : stopError = false) :
    classifyByte c b stopError s = s.withAbu (s.abu.headerByte b) := by
  simp [classifyByte, rx, good]

/-- In BODY a byte before the last check byte is collected. -/
theorem classifyByte_of_body (rx : s.abu.rx = .body) (good : stopError = false) (header : 5 ≤ s.abu.taken.length)
    (more : s.abu.taken.length + 1 ≠ 5 + (s.abu.taken.getD 4 0).toNat + 2) :
    classifyByte c b stopError s = s.withAbu { s.abu with taken := s.abu.taken ++ [b] } := by
  have short : s.abu.taken.length + 1 ≠ telegramLength (s.abu.taken ++ [b]) := by
    rwa [telegramLength_append header]
  simp [classifyByte, rx, good, short]

end

/-! ### The command -/

theorem exec_byteArrival (dt : Nat) (b : Byte) (stopError : Bool) (s : State) :
    exec (.byteArrival dt b stopError) s = execByteArrival dt b stopError s := rfl

/-- While the part does not send, a byte is noted and then classified. -/
theorem byteArrival_of_receiving {dt : Nat} {b : Byte} {stopError : Bool} {s : State} {c : Settings}
    (settings : (s.arrive dt).settings = some c) (receiving : (s.arrive dt).abu.tx ≠ .sending) :
    exec (.byteArrival dt b stopError) s = .next (classifyByte c b stopError
      ((s.arrive dt).withAbu ((s.arrive dt).abu.noteByte (s.arrive dt).timeUs))) := by
  simp only [exec_byteArrival, execByteArrival, settings, busByte, if_neg receiving]

end Sys2Proof.Machine

namespace Sys2Proof.Proofs

open Sys2Proof Sys2Proof.Machine

/-- Settles O37: the byte is noted, and then each receive state takes it by its own lemma, each header field by its check. -/
theorem receiverTakesBytes : Obligations.ReceiverTakesBytes := by
  intro dt b stopError start c s settings receiving noted discarded ignored becomes known
  have classified {a : Abu} (h : classifyByte c b stopError (s.withAbu noted) = s.withAbu a) : becomes a :=
    (byteArrival_of_receiving settings receiving).trans (congrArg _ h)
  have firstByte {a : Abu} (rx : s.abu.rx = .ready) (good : stopError = false)
      (h : { noted with taken := [] }.headerByte b = a) : becomes a :=
    classified ((classifyByte_of_ready (s := s.withAbu noted) rx good).trans (congrArg (s.withAbu ·) h))
  have nextByte {a : Abu} (rx : s.abu.rx = .header) (good : stopError = false) (h : noted.headerByte b = a) : becomes a :=
    classified ((classifyByte_of_header (s := s.withAbu noted) rx good).trans (congrArg (s.withAbu ·) h))
  refine ⟨fun gapWait => classified (classifyByte_of_gapWait gapWait),
    fun rx bad => classified (classifyByte_of_stopError rx bad), ?_, ?_, ?_, ?_, ?_, ?_, ?_,
    fun rx good header more => classified (classifyByte_of_body rx good header more)⟩
  · intro rx good kind
    exact firstByte rx good (headerByte_of_ok (index := 0) rfl (by decide) ((headerFieldOk_kind b).2 kind))
  · intro rx good kind
    exact firstByte rx good (headerByte_of_not_ok rfl (mt (headerFieldOk_kind b).1 kind))
  · intro rx good count low high
    exact nextByte rx good (headerByte_of_header_of_ok rx count (by decide) ((headerFieldOk_source b).2 ⟨low, high⟩))
  · intro rx good count outside
    have fails : ¬ headerFieldOk 1 b = true := by
      rw [headerFieldOk_source]
      rcases outside with rfl | high
      · decide
      · omega
    exact nextByte rx good (headerByte_of_not_ok count fails)
  · intro rx good count
    have more : s.abu.taken.length ≠ 4 := by omega
    exact nextByte rx good (headerByte_of_header_of_ok rx rfl more (headerFieldOk_unchecked count b))
  · intro rx good count short
    exact nextByte rx good (headerByte_of_last_ok count ((headerFieldOk_length b).2 short))
  · intro rx good count long
    exact nextByte rx good (headerByte_of_not_ok count (mt (headerFieldOk_length b).1 (by omega)))

end Sys2Proof.Proofs
end

section
/-! Proofs: what a window close makes of the peer table (R45, R51). -/

namespace Sys2Proof.Machine

/-! ### One entry (R45, R51) -/

section
variable {c : Settings} {now : Ms} {e : PeerEntry}

/-- A digest is fresh up to twice the window length after it was taken, and not fresh once its time is absent (R45). -/
theorem fresh_iff : e.fresh c now = true ↔ ∃ d, e.lastDigest = some d ∧ since now d ≤ 2 * c.windowLength := by
  unfold PeerEntry.fresh
  cases e.lastDigest <;> simp

/-- R51, first case: an entry not heard for more than four window lengths goes. -/
theorem aged_of_unheard (unheard : 4 * c.windowLength < since now e.lastHeard) : e.aged c now = none :=
  if_pos unheard

/-- R51, third case: an entry that was heard and whose digest is fresh stays as it is. -/
theorem aged_of_fresh (heard : ¬ 4 * c.windowLength < since now e.lastHeard) (fresh : e.fresh c now = true) :
    e.aged c now = some e :=
  (if_neg heard).trans (if_pos fresh)

/-- R51, second case: an entry that was heard and whose digest is not fresh keeps everything but its last-digest time. -/
theorem aged_of_not_fresh (heard : ¬ 4 * c.windowLength < since now e.lastHeard) (stale : ¬ e.fresh c now = true) :
    e.aged c now = some { e with lastDigest := none } :=
  (if_neg heard).trans (if_neg stale)

/-- Making an absent last-digest time absent changes nothing. -/
theorem withoutDigest_eq_self (absent : e.lastDigest = none) : { e with lastDigest := none } = e := by
  rw [← absent]

/-- The ageing of an entry, read off its two times. -/
theorem aged_eq : e.aged c now =
    if 4 * c.windowLength < since now e.lastHeard then none
    else match e.lastDigest with
      | none => some e
      | some d => if since now d ≤ 2 * c.windowLength then some e else some { e with lastDigest := none } := by
  split
  case isTrue unheard => exact aged_of_unheard unheard
  case isFalse heard =>
    split
    case h_1 absent =>
      have stale : ¬ e.fresh c now = true := by simp [fresh_iff, absent]
      rw [aged_of_not_fresh heard stale, withoutDigest_eq_self absent]
    case h_2 d digest =>
      have fresh_iff_recent : e.fresh c now = true ↔ since now d ≤ 2 * c.windowLength := by simp [fresh_iff, digest]
      split
      case isTrue recent => exact aged_of_fresh heard (fresh_iff_recent.2 recent)
      case isFalse late => exact aged_of_not_fresh heard (mt fresh_iff_recent.1 late)

end

/-! ### The command -/

/-- Ageing is not counted as overflow (R51). -/
@[simp] theorem age_overflow (c : Settings) (now : Ms) (p : Ptb) : (p.age c now).overflow = p.overflow := rfl

/-- Of all that a close does, only the ageing writes the peer table: the evaluation and the judges leave it. -/
theorem ptb_closeWindow (c : Settings) (order : CloseOrder) (s : State) :
    (closeWindow c order s).ptb = s.ptb.age c s.nowMs := by
  simp [closeWindow]

/-- With all 64 samples taken, WINDOW_CLOSE is the close and then the end of its step. -/
theorem exec_windowClose_of_full {dt : Nat} {order : CloseOrder} {s : State} {c : Settings}
    (settings : (s.arrive dt).settings = some c) (full : (s.arrive dt).wac.count = 64) :
    exec (.windowClose dt order) s = .next (endStep order.demandsWait (closeWindow c order (s.arrive dt))) := by
  simp only [exec_windowClose, execWindowClose, settings, full, if_true]

/-- A full window's close leaves the table aged, in whichever order the close is judged and whatever the open demands do. -/
theorem windowClose_ptb_of_full {dt : Nat} {order : CloseOrder} {s : State} {c : Settings}
    (settings : (s.arrive dt).settings = some c) (full : (s.arrive dt).wac.count = 64) :
    ∃ t, exec (.windowClose dt order) s = .next t ∧ t.ptb = (s.arrive dt).ptb.age c (s.arrive dt).nowMs := by
  refine ⟨_, exec_windowClose_of_full settings full, ?_⟩
  simp only [endStep_frame, ptb_closeWindow]

end Sys2Proof.Machine

namespace Sys2Proof.Proofs

open Sys2Proof Sys2Proof.Machine

/-- Settles O22: the close leaves the aged table, whose entries are the old ones aged one by one and whose count stands; the statement
writes the window length out as 64 sample intervals (R9). -/
theorem peersAgeAtTheWindowClose : Obligations.PeersAgeAtTheWindowClose := by
  intro dt order start c s settings full
  obtain ⟨t, run, ptb⟩ := windowClose_ptb_of_full (order := order) settings full
  refine ⟨t, run, by rw [ptb, age_overflow], ?_⟩
  rw [ptb]
  exact List.filterMap_congr fun e _ => aged_eq

end Sys2Proof.Proofs
end

section
/-! Proofs: what the Arc contest unit makes of an ARC_CLAIM delivered to it: the check of its body, its feeder, the rival list and the
comparison (R103, R104, R106). -/

namespace Sys2Proof.Machine

/-! ### The check of the body (R103) -/

/-- An ARC_CLAIM body is five bytes long. -/
theorem parseClaim_of_length_ne {body : List Byte} (length : body.length ≠ 5) : parseClaim body = none := by
  unfold parseClaim
  split
  · exact absurd rfl length
  · rfl

/-- The four checks that R103 makes of the five bytes: round, outcome, score and string index. -/
def ClaimSound (round outcome hi lo string : Byte) : Prop :=
  (round = 1 ∨ round = 2) ∧ (outcome = 1 ∨ outcome = 2) ∧ hi.toNat * 256 + lo.toNat ≤ 1023 ∧ 1 ≤ string.toNat ∧ string.toNat ≤ 12

/-- The condition that the parser tests, on the values of the bytes, is that of the bytes themselves. -/
theorem claimSound_iff {round outcome hi lo string : Byte} :
    (round.toNat = 1 ∨ round.toNat = 2) ∧ (outcome.toNat = 1 ∨ outcome.toNat = 2) ∧ word16 hi lo ≤ 1023
      ∧ 1 ≤ string.toNat ∧ string.toNat ≤ 12 ↔ ClaimSound round outcome hi lo string := by
  have value (b n : Byte) : b.toNat = n.toNat ↔ b = n := BitVec.toNat_inj
  exact and_congr (or_congr (value round 1) (value round 2)) (and_congr (or_congr (value outcome 1) (value outcome 2)) Iff.rfl)

section
variable {round outcome hi lo string : Byte}

/-- A sound body is read field by field. -/
theorem parseClaim_of_sound (sound : ClaimSound round outcome hi lo string) :
    parseClaim [round, outcome, hi, lo, string] = some ⟨round.toNat, outcome.toNat, word16 hi lo, string.toNat⟩ :=
  if_pos (claimSound_iff.2 sound)

/-- Five bytes of which one check fails are not read. -/
theorem parseClaim_of_not_sound (fails : ¬ ClaimSound round outcome hi lo string) :
    parseClaim [round, outcome, hi, lo, string] = none :=
  if_neg (mt claimSound_iff.1 fails)

end

/-! ### Discarded, set aside or taken (R103) -/

section
variable {c : Settings} {t : Telegram} {s : State} {claim : Claim}

/-- A claim whose body fails the check is discarded. -/
theorem takeClaim_of_discarded (body : parseClaim t.body = none) : takeClaim c t s = s := by
  simp only [takeClaim, body]

/-- A claim of another feeder is set aside, whatever its body. -/
theorem takeClaim_of_foreign (feeder : t.feeder ≠ c.feeder) : takeClaim c t s = s := by
  unfold takeClaim
  split
  · rfl
  · exact if_neg feeder

/-- A sound claim of the own feeder is a rival claim. -/
theorem takeClaim_of_rival (body : parseClaim t.body = some claim) (feeder : t.feeder = c.feeder) :
    takeClaim c t s = s.withAcu (s.acu.rivalClaim t.source claim.score s.nowMs) := by
  simp only [takeClaim, body, if_pos feeder]

end

/-! ### The rival list (R104) -/

section
variable {r : Rival} {l : List Rival}

/-- The entry of a station already listed goes out, and the new one stands at the back. -/
theorem enterRival_of_listed (listed : ∃ q ∈ l, q.station = r.station) :
    enterRival r l = (l.filter fun q => decide (q.station ≠ r.station)) ++ [r] :=
  if_pos (by simpa using listed)

/-- The list's search for the station of a new entry fails when the station is not listed. -/
theorem any_station_of_unlisted (unlisted : ∀ q ∈ l, q.station ≠ r.station) :
    ¬ l.any (fun q => decide (q.station = r.station)) = true := by
  simpa using unlisted

/-- A station not listed takes the place of the oldest entry of a full list. -/
theorem enterRival_of_full (unlisted : ∀ q ∈ l, q.station ≠ r.station) (full : 8 ≤ l.length) :
    enterRival r l = l.drop 1 ++ [r] := by
  rw [enterRival, if_neg (any_station_of_unlisted unlisted), if_pos full]

/-- A station not listed is added where there is room. -/
theorem enterRival_of_room (unlisted : ∀ q ∈ l, q.station ≠ r.station) (room : l.length < 8) : enterRival r l = l ++ [r] := by
  rw [enterRival, if_neg (any_station_of_unlisted unlisted), if_neg (Nat.not_le.2 room)]

end

/-! ### The comparison (R106) -/

/-- A claim takes the place of the best rival exactly when it is stronger than every best rival there is: an absent one, or one of a
smaller score or, at its own score, of a higher station. -/
theorem compareRival_eq (station score : Nat) (best : Option BestRival) :
    compareRival station score best =
      if best.all (fun b => b.score < score || (score = b.score && station < b.station)) then some ⟨station, score⟩ else best := by
  cases best with
  | none => rfl
  | some b => simp [compareRival]

section
variable {station score : Nat} {now : Ms} {a : Acu}

/-- A rival claim writes the rival list and the contest record, and nothing else of the unit. -/
theorem rivalClaim_frame :
    a.rivalClaim station score now =
      { a with rivals := (a.rivalClaim station score now).rivals, contest := (a.rivalClaim station score now).contest } := rfl

@[simp] theorem rivalClaim_rivals : (a.rivalClaim station score now).rivals = enterRival ⟨station, score, now⟩ a.rivals := rfl

/-- In CONTEST a rival claim is compared, and the rest of the record stands. -/
theorem rivalClaim_contest_of_contest {n : Nat} {own : Peak} {chosen : StringIdx} {windowEnd : Ms} {best : Option BestRival}
    (contest : a.contest = .contest n own chosen windowEnd best) :
    (a.rivalClaim station score now).contest = .contest n own chosen windowEnd (compareRival station score best) := by
  simp only [Acu.rivalClaim, contest]

/-- In IDLE, YIELDED and SETTLE a rival claim leaves the record as it is. -/
theorem rivalClaim_contest_of_outside
    (outside : ∀ n own chosen windowEnd best, a.contest ≠ .contest n own chosen windowEnd best) :
    (a.rivalClaim station score now).contest = a.contest := by
  cases state : a.contest with
  | contest n own chosen windowEnd best => exact absurd state (outside n own chosen windowEnd best)
  | idle | yielded | settle => simp only [Acu.rivalClaim, state]

end

end Sys2Proof.Machine

namespace Sys2Proof.Proofs

open Sys2Proof Sys2Proof.Machine

/-- Settles O34: the check of the body and the feeder decide whether the claim is taken; a claim that is taken is listed by the case of
its station and of the list's length, and compared by the state of the contest. -/
theorem rivalClaimsAreListedAndCompared : Obligations.RivalClaimsAreListedAndCompared := by
  intro c s kind source dest feeder body t
  refine ⟨fun outside => ?_, fun round outcome hi lo string bytes => ?_⟩
  · rcases outside with length | foreign
    · exact takeClaim_of_discarded (parseClaim_of_length_ne length)
    · exact takeClaim_of_foreign foreign
  · subst bytes
    intro score sound entry
    refine ⟨fun fails => takeClaim_of_discarded (parseClaim_of_not_sound fails), fun holds own => ?_⟩
    have taken : t = s.withAcu (s.acu.rivalClaim source score s.nowMs) :=
      takeClaim_of_rival (t := ⟨kind, source, dest, feeder, _⟩) (parseClaim_of_sound holds) own
    have acu : t.acu = s.acu.rivalClaim source score s.nowMs := by rw [taken, State.withAcu_acu]
    have rivals : t.acu.rivals = enterRival entry s.acu.rivals := by rw [acu, rivalClaim_rivals]
    refine ⟨?_, fun listed => rivals.trans (enterRival_of_listed listed),
      fun unlisted full => rivals.trans (enterRival_of_full unlisted full),
      fun unlisted room => rivals.trans (enterRival_of_room unlisted room), ?_, ?_⟩
    · rw [acu, ← rivalClaim_frame]
      exact taken
    · intro n peak chosen windowEnd best contest
      rw [acu, rivalClaim_contest_of_contest contest, compareRival_eq]
    · intro outside
      rw [acu, rivalClaim_contest_of_outside outside]

end Sys2Proof.Proofs
end

section
/-! Proofs: what each of the three resets makes of the fault log and of the indicator line (R158, R161). -/

namespace Sys2Proof.Machine

/-! ### The indicator line (R158) -/

/-- The line is lit exactly when a record is unacknowledged or an unacknowledged one was lost. -/
theorem indicator_iff {s : State} :
    s.indicator = true ↔ (∃ r ∈ s.flg.records, r.ackBy = none) ∨ 0 < s.flg.lost := by
  simp [State.indicator]

/-- The line of an empty log without losses is dark. -/
theorem indicator_of_reset {t : State} (flg : t.flg = Flg.reset) : t.indicator = false := by
  rw [← Bool.not_eq_true, indicator_iff, flg]
  simp [Flg.reset]

/-! ### The log across a SERVICE_RESTART (R161) -/

/-- The restart writes the declaration times alone. -/
@[simp] theorem restarted_fields (f : Flg) :
    f.restarted.records = f.records.map (fun r => { r with declared := none }) ∧ f.restarted.nextSeq = f.nextSeq ∧
      f.restarted.lost = f.lost :=
  ⟨rfl, rfl, rfl⟩

/-- The kept log calls for the level that it called for before: the line does not depend on the declaration times. -/
theorem indicator_of_restarted {s t : State} (flg : t.flg = s.flg.restarted) : t.indicator = s.indicator := by
  rw [Bool.eq_iff_iff, indicator_iff, indicator_iff, flg]
  simp

/-! ### The commands -/

/-- A taken RESTART is due once its answer has been sent and no write runs (R181). -/
theorem restartDue_iff {s : State} :
    restartDue s = true ↔ ∃ sent, s.svl.restart = some sent ∧ sent ≤ s.timeUs ∧ s.nvs.write = none := by
  unfold restartDue
  cases s.svl.restart <;> simp

theorem exec_powerOn (level : Bool) (s : State) :
    exec (.powerOn level) s = .next (resetPart .powerOn level Flg.reset s.settled) := rfl

theorem exec_supplyDip (level : Bool) (s : State) :
    exec (.supplyDip level) s = .next (resetPart .supplyDip level Flg.reset s.settled) := rfl

theorem exec_serviceRestart (dt : Nat) (level : Bool) (s : State) :
    exec (.serviceRestart dt level) s = execServiceRestart dt level s := rfl

/-- A SERVICE_RESTART that is due resets the part and keeps the log that stands once the arrivals are taken. -/
theorem exec_serviceRestart_of_due {dt : Nat} {s : State} (level : Bool) (due : restartDue (s.settled.elapse dt) = true) :
    exec (.serviceRestart dt level) s =
      .next (resetPart .serviceRestart level s.settled.flg.restarted (s.settled.elapse dt)) := by
  rw [exec_serviceRestart, execServiceRestart]
  exact if_pos due

/-- The settings load that follows a reset leaves the fault log that the reset was given. -/
theorem flg_resetPart (kind : ResetKind) (level : Bool) (f : Flg) (s : State) : (resetPart kind level f s).flg = f := by
  simp only [resetPart_frame]

/-- POWER_ON and SUPPLY_DIP leave the empty log. -/
theorem flg_of_powerOn_or_supplyDip {c : Instr} {level : Bool} (s : State) (reset : c = .powerOn level ∨ c = .supplyDip level) :
    ∃ t, exec c s = .next t ∧ t.flg = Flg.reset := by
  rcases reset with rfl | rfl
  · exact ⟨_, exec_powerOn level s, flg_resetPart ..⟩
  · exact ⟨_, exec_supplyDip level s, flg_resetPart ..⟩

/-- A SERVICE_RESTART that is due leaves the log of before without its declaration times. -/
theorem flg_of_serviceRestart {dt : Nat} {s : State} (level : Bool) (due : restartDue (s.settled.elapse dt) = true) :
    ∃ t, exec (.serviceRestart dt level) s = .next t ∧ t.flg = s.settled.flg.restarted :=
  ⟨_, exec_serviceRestart_of_due level due, flg_resetPart ..⟩

end Sys2Proof.Machine

namespace Sys2Proof.Proofs

open Sys2Proof Sys2Proof.Machine

/-- Settles O5: a reset leaves either the empty log or the kept log without its declaration times, and the line follows from the log. -/
theorem faultLogAcrossResets : Obligations.FaultLogAcrossResets := by
  intro start level s
  refine ⟨fun c reset => ?_, fun dt sent taken answered idle => ?_⟩
  · obtain ⟨t, run, flg⟩ := flg_of_powerOn_or_supplyDip start reset
    refine ⟨t, run, ?_, ?_, ?_, indicator_of_reset flg⟩ <;> rw [flg] <;> rfl
  · have due : restartDue (s.elapse dt) = true := restartDue_iff.2 ⟨sent, taken, answered, idle⟩
    obtain ⟨t, run, flg⟩ := flg_of_serviceRestart level due
    obtain ⟨records, nextSeq, lost⟩ := restarted_fields s.flg
    rw [← flg] at records nextSeq lost
    exact ⟨t, run, records, nextSeq, lost, indicator_of_restarted flg⟩

end Sys2Proof.Proofs
end

section
/-! Proofs: what an ACKNOWLEDGE of an operator station makes of the fault log, and its reply (R159, R168). -/

namespace Sys2Proof.Machine

/-! ### The log (R159) -/

theorem flg_has_iff {f : Flg} {seq : Nat} : f.has seq = true ↔ ∃ r ∈ f.records, r.seq = seq := by
  simp [Flg.has]

/-- A number that one record alone bears is that of the newest record exactly when no record stands behind it. -/
theorem flg_isNewest_iff {f : Flg} {seq : Nat} {before after : List FaultRecord} {r : FaultRecord}
    (records : f.records = before ++ r :: after) (named : r.seq = seq) (later : ∀ q ∈ after, q.seq ≠ seq) :
    f.isNewest seq = true ↔ after = [] := by
  rcases List.eq_nil_or_concat after with rfl | ⟨l, q, rfl⟩
  · simp [Flg.isNewest, records, named]
  · have other : q.seq ≠ seq := later q (by simp)
    simp [Flg.isNewest, records, List.getLast?_cons, other]

/-- The log after an acknowledgement of a number that one record alone bears. -/
theorem flg_acknowledge_eq {f : Flg} {seq station : Nat} {before after : List FaultRecord} {r : FaultRecord}
    (records : f.records = before ++ r :: after) (named : r.seq = seq) (others : ∀ q ∈ before ++ after, q.seq ≠ seq) :
    f.acknowledge seq station = { f with
      records := (before ++ [r]).map (fun q => if q.ackBy = none then { q with ackBy := some station } else q) ++ after
      lost := if after = [] then 0 else f.lost } := by
  have earlier : ∀ q ∈ before, q.seq ≠ seq := fun q hq => others q (List.mem_append_left _ hq)
  have later : ∀ q ∈ after, q.seq ≠ seq := fun q hq => others q (List.mem_append_right _ hq)
  simp only [Flg.acknowledge, flg_isNewest_iff records named later, records, acknowledgeUpTo_eq named earlier,
    Option.isNone_iff_eq_none]

/-! ### The request kind's own action (R168) -/

section
variable {c : Settings} {r : Request} {s : State}

theorem serveAcknowledge_of_zero (zero : r.word 0 = 0) : serveAcknowledge c r s = Served.refusal s resultBadArgument :=
  if_pos zero

theorem serveAcknowledge_of_absent (nonzero : r.word 0 ≠ 0) (absent : ∀ q ∈ s.flg.records, q.seq ≠ r.word 0) :
    serveAcknowledge c r s = Served.refusal s resultStaleSequence := by
  have unknown : ¬ s.flg.has (r.word 0) = true := fun known =>
    let ⟨q, listed, numbered⟩ := flg_has_iff.1 known
    absent q listed numbered
  rw [serveAcknowledge, if_neg nonzero, if_neg unknown]

theorem serveAcknowledge_of_listed (nonzero : r.word 0 ≠ 0) (listed : ∃ q ∈ s.flg.records, q.seq = r.word 0) :
    serveAcknowledge c r s =
      ⟨s.withFlg (s.flg.acknowledge (r.word 0) r.source), resultDone,
        [flagByte (s.withFlg (s.flg.acknowledge (r.word 0) r.source)).indicator]⟩ := by
  rw [serveAcknowledge, if_neg nonzero, if_pos (flg_has_iff.2 listed)]

end

/-! ### The command -/

theorem exec_acknowledge (dt : Nat) (s : State) : exec (.acknowledge dt) s = execAcknowledge dt s := rfl

/-- A well-formed ACKNOWLEDGE of an operator station passes the checks of R164, and the reply carries what its own action answers. -/
theorem exec_acknowledge_of_operator {dt : Nat} {start : State} {c : Settings} {rest : List Request} {source : Nat}
    {tag hi lo : Byte} (settings : (start.arrive dt).settings = some c)
    (requests : (start.arrive dt).requests = ⟨source, [3, tag, 2, hi, lo]⟩ :: rest) (operator : source ≠ 0 ∧ source ∈ c.operators)
    {v : Served} (served : serveAcknowledge c ⟨source, [3, tag, 2, hi, lo]⟩ ((start.arrive dt).withRequests rest) = v) :
    exec (.acknowledge dt) start = .next (offerReply source ([3, tag, v.result] ++ v.data) v.state) := by
  rw [exec_acknowledge, execAcknowledge, serve_of_kind settings requests rfl,
    checkedServe_of_ok (.inr (isOperator_iff.2 operator)) rfl, served]
  rfl

end Sys2Proof.Machine

namespace Sys2Proof.Proofs

open Sys2Proof Sys2Proof.Machine

/-- Settles O47: the checks pass, so the action's three cases are those of the number S: it is 0, no record bears it, or one does. -/
theorem acknowledgeCoversTheLogUpToS : Obligations.AcknowledgeCoversTheLogUpToS := by
  intro dt start c rest source tag hi lo s settings requests nonzeroSource listedOperator number taken
  have run {v : Served} := exec_acknowledge_of_operator (v := v) settings requests ⟨nonzeroSource, listedOperator⟩
  refine ⟨fun zero => ?_, fun nonzero absent => ?_, ?_⟩
  · exact run (serveAcknowledge_of_zero zero)
  · exact run (serveAcknowledge_of_absent nonzero absent)
  · intro nonzero before r after records named others log
    have listed : ∃ q ∈ s.flg.records, q.seq = number := ⟨r, by simp [records], named⟩
    have acknowledged : s.flg.acknowledge number source = log := flg_acknowledge_eq records named others
    rw [← acknowledged]
    exact run (serveAcknowledge_of_listed nonzero listed)

end Sys2Proof.Proofs
end

section
/-! Proofs: the fault log stays in order under each of its writes (R154 to R157, R159, R161). -/

namespace Sys2Proof.Machine

/-! ### The conditions in the language of propositions -/

theorem inRange_iff {lo hi n : Nat} : inRange lo hi n = true ↔ lo ≤ n ∧ n ≤ hi := by
  simp [inRange]

theorem satSucc_le {top n : Nat} (h : n ≤ top) : satSucc top n ≤ top := by
  unfold satSucc
  split <;> omega

theorem flg_ok_iff {f : Flg} :
    f.ok = true ↔ f.records.length ≤ 32 ∧ (1 ≤ f.nextSeq ∧ f.nextSeq ≤ 65535) ∧
      (∀ r ∈ f.records, 1 ≤ r.seq ∧ r.seq ≤ 65535) ∧ numbered f.nextSeq f.records = true ∧
      acknowledgedFirst f.records = true ∧ f.lost ≤ 255 := by
  simp [Flg.ok, inRange_iff, and_assoc]

/-! ### Numbers and acknowledgements along the list -/

/-- After a first record the run goes on with the next number. -/
theorem numbered_cons {next : Nat} {r : FaultRecord} {l : List FaultRecord} (h : numbered next (r :: l) = true) :
    numbered next l = true := by
  cases l with
  | nil => rfl
  | cons q l =>
    simp only [numbered, Bool.and_eq_true] at h
    exact h.2

/-- A record of the next number goes on with the run. -/
theorem numbered_append {l : List FaultRecord} {r : FaultRecord} (h : numbered r.seq l = true) :
    numbered (succSeq r.seq) (l ++ [r]) = true := by
  induction l with
  | nil => simp [numbered]
  | cons q l ih =>
    cases l with
    | nil => simpa [numbered] using h
    | cons p l =>
      simp only [numbered, Bool.and_eq_true] at h
      simp only [List.cons_append, numbered, Bool.and_eq_true]
      exact ⟨h.1, ih h.2⟩

/-- The run is one of the records' numbers alone. -/
theorem numbered_congr {next : Nat} {l m : List FaultRecord} (h : l.map FaultRecord.seq = m.map FaultRecord.seq) :
    numbered next l = numbered next m := by
  induction l generalizing m with
  | nil => cases m <;> simp_all
  | cons r l ih =>
    cases m with
    | nil => simp at h
    | cons q m =>
      simp only [List.map_cons, List.cons.injEq] at h
      cases l with
      | nil => cases m <;> simp_all [numbered]
      | cons r' l =>
        cases m with
        | nil => simp at h
        | cons q' m =>
          have tail := ih h.2
          simp only [List.map_cons, List.cons.injEq] at h
          simp only [numbered, tail, h.1, h.2.1]

theorem acknowledgedFirst_cons {r : FaultRecord} {l : List FaultRecord} :
    acknowledgedFirst (r :: l) = true ↔ (r.ackBy ≠ none ∨ ∀ q ∈ l, q.ackBy = none) ∧ acknowledgedFirst l = true := by
  simp [acknowledgedFirst, Option.isSome_iff_ne_none]

/-- A new record is unacknowledged, and stands behind the others. -/
theorem acknowledgedFirst_append {l : List FaultRecord} {r : FaultRecord} (h : acknowledgedFirst l = true) (new : r.ackBy = none) :
    acknowledgedFirst (l ++ [r]) = true := by
  induction l with
  | nil => simp [acknowledgedFirst]
  | cons q l ih =>
    rw [acknowledgedFirst_cons] at h
    rw [List.cons_append, acknowledgedFirst_cons]
    refine ⟨h.1.imp_right fun later p hp => ?_, ih h.2⟩
    rcases List.mem_append.1 hp with hp | hp
    · exact later p hp
    · rw [List.mem_singleton.1 hp, new]

/-- A change of the records that leaves their acknowledgements leaves the order. -/
theorem acknowledgedFirst_map {g : FaultRecord → FaultRecord} (h : ∀ r, (g r).ackBy = r.ackBy) (l : List FaultRecord) :
    acknowledgedFirst (l.map g) = acknowledgedFirst l := by
  induction l with
  | nil => rfl
  | cons r l ih => simp [acknowledgedFirst, ih, h, List.all_map, Function.comp_def]

/-- With the acknowledged records in front, the record that makes room is the first one (R156). -/
theorem removeOldest_eq_drop {l : List FaultRecord} (h : acknowledgedFirst l = true) : removeOldest l = l.drop 1 := by
  unfold removeOldest
  split
  case isFalse => rfl
  case isTrue some_acknowledged =>
    cases l with
    | nil => rfl
    | cons r l =>
      have first : r.ackBy.isSome = true := by
        rcases (acknowledgedFirst_cons.1 h).1 with first | later
        · exact Option.isSome_iff_ne_none.2 first
        · simp only [List.any_cons, Bool.or_eq_true, List.any_eq_true] at some_acknowledged
          rcases some_acknowledged with first | ⟨q, hq, acknowledged⟩
          · exact first
          · simp [later q hq] at acknowledged
      simp [first]

/-! ### The writes of the log -/

/-- Room is made by the removal of the first record, if any. -/
theorem flg_ok_makeRoom {f : Flg} (h : f.ok = true) : f.makeRoom.ok = true ∧ f.makeRoom.records.length ≤ 31 := by
  unfold Flg.makeRoom
  split
  case isFalse room => exact ⟨h, by omega⟩
  case isTrue =>
    obtain ⟨length, next, numbers, run, order, lost⟩ := flg_ok_iff.1 h
    rw [removeOldest_eq_drop order]
    cases records : f.records with
    | nil => simp_all
    | cons r l =>
      rw [records] at length numbers run order
      refine ⟨flg_ok_iff.2 ⟨?_, next, fun q hq => numbers q (List.mem_cons_of_mem _ hq), numbered_cons run,
        (acknowledgedFirst_cons.1 order).2, ?_⟩, ?_⟩
      · simp at length ⊢
        omega
      · dsimp only
        split
        · exact lost
        · exact satSucc_le lost
      · exact Nat.le_of_lt_succ (by simpa using length)

theorem succSeq_range {n : Nat} (h : 1 ≤ n ∧ n ≤ 65535) : 1 ≤ succSeq n ∧ succSeq n ≤ 65535 := by
  unfold succSeq
  split <;> omega

theorem flg_ok_append {f : Flg} (d : Declaration) (seconds : Nat) (now : Ms) (h : f.ok = true) :
    (f.append d seconds now).ok = true := by
  obtain ⟨room, short⟩ := flg_ok_makeRoom h
  obtain ⟨-, next, numbers, run, order, lost⟩ := flg_ok_iff.1 room
  refine flg_ok_iff.2 ⟨?_, succSeq_range next, ?_,
    numbered_append (r := recordOf d f.makeRoom.nextSeq seconds now) run, acknowledgedFirst_append order rfl, lost⟩
  · simpa [Flg.append] using Nat.lt_succ_of_le short
  · intro r hr
    rcases List.mem_append.1 hr with hr | hr
    · exact numbers r hr
    · rw [List.mem_singleton.1 hr]
      exact next

/-- A change of the records that leaves their numbers and acknowledgements keeps the log in order. -/
theorem flg_ok_map {f : Flg} {g : FaultRecord → FaultRecord} (seq : ∀ r, (g r).seq = r.seq) (ack : ∀ r, (g r).ackBy = r.ackBy)
    (h : f.ok = true) : ({ f with records := f.records.map g } : Flg).ok = true := by
  obtain ⟨length, next, numbers, run, order, lost⟩ := flg_ok_iff.1 h
  refine flg_ok_iff.2 ⟨by simpa using length, next, ?_, ?_, (acknowledgedFirst_map ack _).trans order, lost⟩
  · intro r hr
    obtain ⟨q, hq, rfl⟩ := List.mem_map.1 hr
    rw [seq]
    exact numbers q hq
  · rw [← run]
    exact numbered_congr (by simp [Function.comp_def, seq])

theorem flg_ok_failIsolation {f : Flg} (i : StringIdx) (start now : Ms) (seconds : Nat) (h : f.ok = true) :
    (f.failIsolation i start now seconds).ok = true :=
  flg_ok_map (fun r => by split <;> rfl) (fun r => by split <;> rfl) h

theorem flg_ok_restarted {f : Flg} (h : f.ok = true) : f.restarted.ok = true :=
  flg_ok_map (fun _ => rfl) (fun _ => rfl) h

theorem seq_acknowledgeUpTo (seq station : Nat) (l : List FaultRecord) :
    (acknowledgeUpTo seq station l).map FaultRecord.seq = l.map FaultRecord.seq := by
  induction l with
  | nil => rfl
  | cons r l ih =>
    unfold acknowledgeUpTo
    dsimp only
    split_ifs <;> simp [ih]

theorem acknowledgedFirst_acknowledgeUpTo (seq station : Nat) {l : List FaultRecord} (h : acknowledgedFirst l = true) :
    acknowledgedFirst (acknowledgeUpTo seq station l) = true := by
  induction l with
  | nil => rfl
  | cons r l ih =>
    have tail := (acknowledgedFirst_cons.1 h).2
    unfold acknowledgeUpTo
    dsimp only
    split_ifs with none_yet <;> refine acknowledgedFirst_cons.2 ⟨.inl ?_, ?_⟩ <;> simp_all

theorem flg_ok_acknowledge {f : Flg} (seq station : Nat) (h : f.ok = true) : (f.acknowledge seq station).ok = true := by
  obtain ⟨length, next, numbers, run, order, lost⟩ := flg_ok_iff.1 h
  have seqs := seq_acknowledgeUpTo seq station f.records
  refine flg_ok_iff.2 ⟨?_, next, ?_, (numbered_congr seqs).trans run, acknowledgedFirst_acknowledgeUpTo seq station order, ?_⟩
  · have := congrArg List.length seqs
    simp only [List.length_map] at this
    exact this.trans_le length
  · intro r hr
    have : r.seq ∈ f.records.map FaultRecord.seq := seqs ▸ List.mem_map_of_mem hr
    obtain ⟨q, hq, same⟩ := List.mem_map.1 this
    rw [← same]
    exact numbers q hq
  · unfold Flg.acknowledge
    dsimp only
    split
    · exact Nat.zero_le _
    · exact lost

end Sys2Proof.Machine
end

section
/-! Proofs: the transmit queue stays legal and the tally in range under each operation of the Array bus unit (R33, R34). -/

namespace Sys2Proof.Machine

/-! ### The tally (R33) -/

theorem tally_ok_iff {t : Tally} :
    t.ok = true ↔ t.valid ≤ 65535 ∧ t.crcDiscard ≤ 65535 ∧ t.byteDiscard ≤ 65535 ∧ t.headerIgnored ≤ 65535 ∧
      t.collisions ≤ 65535 ∧ t.txDropped ≤ 65535 ∧ t.repliesSuperseded ≤ 65535 := by
  simp [Tally.ok, and_assoc]

/-- The tally stays legal when any one of its counts is raised. -/
structure BumpsOk (t : Tally) : Prop where
  valid : t.bumpValid.ok = true
  crc : t.bumpCrc.ok = true
  byte : t.bumpByte.ok = true
  header : t.bumpHeader.ok = true
  collisions : t.bumpCollisions.ok = true
  dropped : t.bumpDropped.ok = true
  superseded : t.bumpSuperseded.ok = true

/-- Every count saturates. -/
theorem tally_ok_bump {t : Tally} (h : t.ok = true) : BumpsOk t := by
  obtain ⟨valid, crc, byte, header, collisions, dropped, superseded⟩ := tally_ok_iff.1 h
  constructor <;> simp only [tally_ok_iff, Tally.bumpValid, Tally.bumpCrc, Tally.bumpByte, Tally.bumpHeader, Tally.bumpCollisions,
    Tally.bumpDropped, Tally.bumpSuperseded] <;> simp [valid, crc, byte, header, collisions, dropped, superseded, satSucc_le]

/-! ### The queue's own condition, apart from the transmit state -/

/-- The entries of a legal queue: at most 8, at most one DIGEST, an ARC_CLAIM at the front alone, at most one in flight, attempts below
the limit. -/
structure QueueLegal (q : List TxEntry) : Prop where
  short : q.length ≤ 8
  oneDigest : (q.filter fun e => decide (e.kind = .digest)).length ≤ 1
  claimFirst : ∀ e ∈ q.drop 1, e.urgent = false
  oneInFlight : (q.filter TxEntry.inFlight).length ≤ 1
  attempts : ∀ e ∈ q, e.attempts < e.limit

/-- The transmit state fits the queue: in flight only in SENDING, EMPTY without an entry alone, a deferral in DEFERRING alone. -/
structure TxFits (a : Abu) : Prop where
  inFlight : a.tx = .sending ∨ ∀ e ∈ a.queue, e.inFlight = false
  empty : a.queue = [] ↔ a.tx = .empty
  deferral : a.deferral.isSome = true ↔ a.tx = .deferring

theorem queueOk_iff {a : Abu} : a.queueOk = true ↔ QueueLegal a.queue ∧ TxFits a := by
  constructor
  · intro h
    simp only [Abu.queueOk, Bool.and_eq_true, Bool.or_eq_true, decide_eq_true_eq, List.all_eq_true, Bool.not_eq_true'] at h
    obtain ⟨⟨⟨⟨⟨⟨⟨short, digest⟩, claim⟩, flight⟩, sending⟩, attempts⟩, empty⟩, deferral⟩ := h
    rw [Bool.eq_iff_iff, List.isEmpty_iff, decide_eq_true_iff] at empty
    exact ⟨⟨short, digest, claim, flight, attempts⟩, ⟨sending, empty, by simp [deferral]⟩⟩
  · rintro ⟨legal, fits⟩
    simp only [Abu.queueOk, Bool.and_eq_true, Bool.or_eq_true, decide_eq_true_eq, List.all_eq_true, Bool.not_eq_true']
    refine ⟨⟨⟨⟨⟨⟨⟨legal.short, legal.oneDigest⟩, legal.claimFirst⟩, legal.oneInFlight⟩, fits.inFlight⟩, legal.attempts⟩, ?_⟩, ?_⟩
    · rw [Bool.eq_iff_iff, List.isEmpty_iff, decide_eq_true_iff]
      exact fits.empty
    · rw [Bool.eq_iff_iff, decide_eq_true_iff]
      exact fits.deferral

theorem limit_pos (e : TxEntry) : 0 < e.limit := by
  unfold TxEntry.limit
  split <;> decide

theorem queueLegal_nil : QueueLegal [] := ⟨by simp, by simp, by simp, by simp, by simp⟩

/-- A part of a legal queue is legal. -/
theorem QueueLegal.sublist {p q : List TxEntry} (h : QueueLegal q) (sub : p.Sublist q) : QueueLegal p where
  short := sub.length_le.trans h.short
  oneDigest := (sub.filter _).length_le.trans h.oneDigest
  claimFirst e he := h.claimFirst e ((sub.drop 1).subset he)
  oneInFlight := (sub.filter _).length_le.trans h.oneInFlight
  attempts e he := h.attempts e (sub.subset he)

/-- Entries changed in place, in neither kind nor number, with no more of them in flight. -/
theorem QueueLegal.map {q : List TxEntry} (h : QueueLegal q) {g : TxEntry → TxEntry} (kind : ∀ e, (g e).kind = e.kind)
    (flight : ∀ e, (g e).inFlight = true → e.inFlight = true) (attempts : ∀ e, e.attempts < e.limit → (g e).attempts < (g e).limit) :
    QueueLegal (q.map g) where
  short := by simpa using h.short
  oneDigest := by
    have same : (q.map g).filter (fun e => decide (e.kind = .digest)) = (q.filter fun e => decide (e.kind = .digest)).map g := by
      rw [List.filter_map]
      simp [Function.comp_def, kind]
    rw [same, List.length_map]
    exact h.oneDigest
  claimFirst e he := by
    rw [← List.map_drop] at he
    obtain ⟨e', he', rfl⟩ := List.mem_map.1 he
    simpa [TxEntry.urgent, kind] using h.claimFirst e' he'
  oneInFlight := by
    rw [List.filter_map, List.length_map]
    refine le_trans (List.Sublist.length_le ?_) h.oneInFlight
    exact List.monotone_filter_right _ flight
  attempts e he := by
    obtain ⟨e', he', rfl⟩ := List.mem_map.1 he
    exact attempts e' (h.attempts e' he')

/-! ### Beginning to send and to defer (R39 to R41) -/

section
variable {c : Settings} {a : Abu}

/-- The head goes into flight where no entry was. -/
theorem QueueLegal.headInFlight {e : TxEntry} {rest : List TxEntry} (h : QueueLegal (e :: rest))
    (idle : ∀ q ∈ e :: rest, q.inFlight = false) : QueueLegal ({ e with inFlight := true, replaced := false } :: rest) where
  short := h.short
  oneDigest := by
    have old := h.oneDigest
    by_cases digest : e.kind = .digest <;> simpa [List.filter_cons, digest] using old
  claimFirst := h.claimFirst
  oneInFlight := by
    have none_behind : rest.filter TxEntry.inFlight = [] :=
      List.filter_eq_nil_iff.2 fun q hq => by simp [idle q (List.mem_cons_of_mem _ hq)]
    simp [none_behind]
  attempts q hq := by
    rcases List.mem_cons.1 hq with rfl | hq
    · exact h.attempts e List.mem_cons_self
    · exact h.attempts q (List.mem_cons_of_mem _ hq)

theorem queueOk_startSending (legal : QueueLegal a.queue) (idle : ∀ e ∈ a.queue, e.inFlight = false) (waiting : a.queue ≠ []) :
    (a.startSending c).queueOk = true := by
  unfold Abu.startSending
  split
  case h_1 empty => exact absurd empty waiting
  case h_2 e rest queue =>
    rw [queue] at legal idle
    exact queueOk_iff.2 ⟨legal.headInFlight idle, .inl rfl, by simp, by simp⟩

theorem queueOk_deferUrgent (start now : Nat) (legal : QueueLegal a.queue) (idle : ∀ e ∈ a.queue, e.inFlight = false)
    (waiting : a.queue ≠ []) : (a.deferUrgent c start now).queueOk = true := by
  unfold Abu.deferUrgent
  dsimp only
  split
  · exact queueOk_startSending legal idle waiting
  · exact queueOk_iff.2 ⟨legal, .inr idle, by simp [waiting], by simp⟩

theorem queueOk_beginDeferral (now : Nat) (legal : QueueLegal a.queue) (idle : ∀ e ∈ a.queue, e.inFlight = false)
    (waiting : a.queue ≠ []) : (a.beginDeferral c now).queueOk = true := by
  unfold Abu.beginDeferral
  split
  case h_1 empty => exact absurd empty waiting
  case h_2 e rest queue =>
    split
    · exact queueOk_deferUrgent now now legal idle waiting
    · exact queueOk_iff.2 ⟨legal, .inr idle, by simp [waiting], by simp⟩

/-! ### Offers (R34 to R37, R40) -/

/-- The transmitter takes note of a new entry: all that has to be right before is the queue, the flight and the deferral. -/
theorem queueOk_afterTaking (now : Nat) (urgent : Bool) (legal : QueueLegal a.queue) (waiting : a.queue ≠ [])
    (flight : a.tx = .sending ∨ ∀ e ∈ a.queue, e.inFlight = false) (deferral : a.deferral.isSome = true ↔ a.tx = .deferring) :
    (a.afterTaking c now urgent).queueOk = true := by
  unfold Abu.afterTaking
  split
  case h_1 tx =>
    have idle := flight.resolve_left (by simp [tx])
    split
    · exact queueOk_beginDeferral now legal idle waiting
    · exact queueOk_iff.2 ⟨legal, .inr idle, by simp [waiting], by simpa [tx] using deferral⟩
  case h_2 tx => exact queueOk_iff.2 ⟨legal, flight, by simp [waiting, tx], deferral⟩
  case h_3 tx =>
    have idle := flight.resolve_left (by simp [tx])
    have unchanged : a.queueOk = true := queueOk_iff.2 ⟨legal, flight, by simp [waiting, tx], deferral⟩
    split
    · exact unchanged
    · split
      · exact queueOk_deferUrgent _ now legal idle waiting
      · exact unchanged
  case h_4 tx => exact queueOk_iff.2 ⟨legal, flight, by simp [waiting, tx], deferral⟩

/-- An entry as it is offered: no attempt made, not in flight, and of its kind the only one if it is a digest or a claim. -/
structure Offerable (e : TxEntry) (q : List TxEntry) : Prop where
  attempts : e.attempts = 0
  inFlight : e.inFlight = false
  single : e.kind ≠ .reply → ∀ p ∈ q, p.kind ≠ e.kind

theorem Offerable.sublist {e : TxEntry} {p q : List TxEntry} (h : Offerable e q) (sub : p.Sublist q) : Offerable e p :=
  ⟨h.attempts, h.inFlight, fun kind r hr => h.single kind r (sub.subset hr)⟩

theorem mem_placeEntry {e p : TxEntry} {q : List TxEntry} : p ∈ placeEntry e q ↔ p = e ∨ p ∈ q := by
  unfold placeEntry
  split <;> simp [or_comm]

theorem placeEntry_perm (e : TxEntry) (q : List TxEntry) : (placeEntry e q).Perm (e :: q) := by
  unfold placeEntry
  split
  · exact .refl _
  · exact List.perm_append_singleton e q

/-- A queue with room takes an offered entry. -/
theorem QueueLegal.place {e : TxEntry} {q : List TxEntry} (h : QueueLegal q) (offer : Offerable e q) (room : q.length < 8) :
    QueueLegal (placeEntry e q) where
  short := by simpa [(placeEntry_perm e q).length_eq] using room
  oneDigest := by
    rw [((placeEntry_perm e q).filter _).length_eq, List.filter_cons]
    split
    case isFalse => exact h.oneDigest
    case isTrue digest =>
      have kind : e.kind = .digest := by simpa using digest
      have no_other : q.filter (fun e => decide (e.kind = .digest)) = [] :=
        List.filter_eq_nil_iff.2 fun p hp => by simpa [kind] using offer.single (by simp [kind]) p hp
      simp [no_other]
  claimFirst p hp := by
    unfold placeEntry at hp
    split at hp
    case isTrue urgent =>
      have kind : e.kind = .arcClaim := by simpa [TxEntry.urgent] using urgent
      simpa [TxEntry.urgent, kind] using offer.single (by simp [kind]) p (by simpa using hp)
    case isFalse normal =>
      cases q with
      | nil => simp at hp
      | cons r q =>
        rcases List.mem_append.1 (by simpa using hp : p ∈ q ++ [e]) with hp | hp
        · exact h.claimFirst p (by simpa using hp)
        · rw [List.mem_singleton.1 hp]
          simpa using normal
  oneInFlight := by
    rw [((placeEntry_perm e q).filter _).length_eq, List.filter_cons_of_neg (by simp [offer.inFlight])]
    exact h.oneInFlight
  attempts p hp := by
    rcases mem_placeEntry.1 hp with rfl | hp
    · rw [offer.attempts]
      exact limit_pos _
    · exact h.attempts p hp

/-- What has been taken waits in a queue that is not empty, beside the entry in flight, if any. -/
theorem queueOk_taken (now : Nat) {e : TxEntry} {q : List TxEntry} {t : Tally} (h : a.queueOk = true) (sub : q.Sublist a.queue)
    (offer : Offerable e a.queue) (room : q.length < 8) (urgent : Bool) :
    (({ a with queue := placeEntry e q, tally := t } : Abu).afterTaking c now urgent).queueOk = true := by
  obtain ⟨legal, fits⟩ := queueOk_iff.1 h
  refine queueOk_afterTaking now urgent ((legal.sublist sub).place (offer.sublist sub) room) ?_ ?_ fits.deferral
  · exact List.ne_nil_of_mem (mem_placeEntry.2 (.inl rfl))
  · refine fits.inFlight.imp_right fun idle p hp => ?_
    rcases mem_placeEntry.1 hp with rfl | hp
    · exact offer.inFlight
    · exact idle p (sub.subset hp)

theorem queueOk_offerNew (now : Nat) {e : TxEntry} (h : a.queueOk = true) (offer : Offerable e a.queue) :
    (a.offerNew c now e).queueOk = true := by
  have short := (queueOk_iff.1 h).1.short
  unfold Abu.offerNew
  split
  · split
    · exact queueOk_taken now h (List.dropLast_sublist _) offer (by rw [List.length_dropLast]; omega) true
    · exact h
  · exact queueOk_taken now h (List.Sublist.refl _) offer (by omega) e.urgent

theorem queueOk_offerSingle (now : Nat) (kind : TxKind) (body : List Byte) (h : a.queueOk = true) :
    (a.offerSingle c now kind body).queueOk = true := by
  unfold Abu.offerSingle
  split
  case isTrue =>
    obtain ⟨legal, fits⟩ := queueOk_iff.1 h
    refine queueOk_iff.2 ⟨legal.map (fun e => ?_) (fun e => ?_) (fun e hl => ?_), ?_, ?_, fits.deferral⟩
    · split <;> rfl
    · split <;> exact id
    · split
      · exact limit_pos _
      · exact hl
    · refine fits.inFlight.imp_right fun idle p hp => ?_
      obtain ⟨e, he, rfl⟩ := List.mem_map.1 hp
      split <;> exact idle e he
    · simpa [replaceBody] using fits.empty
  case isFalse none_queued =>
    refine queueOk_offerNew now h ⟨rfl, rfl, fun _ p hp same => none_queued ?_⟩
    exact List.any_eq_true.2 ⟨p, hp, decide_eq_true same⟩

/-! ### A reply goes, a transmission ends (R28, R38, R41, R42) -/

theorem queueOk_supersede (source : Nat) (h : a.queueOk = true) : (a.supersede source).queueOk = true := by
  unfold Abu.supersede
  dsimp only
  split
  case isFalse => exact h
  case isTrue =>
    obtain ⟨legal, fits⟩ := queueOk_iff.1 h
    generalize rest : a.queue.eraseP _ = q
    have sub : q.Sublist a.queue := rest ▸ List.eraseP_sublist
    cases q with
    | nil => exact queueOk_iff.2 ⟨queueLegal_nil, by simp, by simp, by simp⟩
    | cons e q =>
      refine queueOk_iff.2 ⟨legal.sublist sub, fits.inFlight.imp_right fun idle p hp => idle p (sub.subset hp), ?_, fits.deferral⟩
      have queued : a.queue ≠ [] := List.ne_nil_of_mem (sub.subset List.mem_cons_self)
      simpa [queued] using fits.empty

/-- Entries leave or stay in their place, of the kind they were, none in flight any more, and of those that stay the attempts are below
the limit: what the end of a transmission makes of a legal queue is legal. -/
theorem QueueLegal.filterMap {q : List TxEntry} (h : QueueLegal q) {g : TxEntry → Option TxEntry}
    (kind : ∀ e p, g e = some p → p.kind = e.kind) (flight : ∀ e p, g e = some p → p.inFlight = false)
    (attempts : ∀ e p, g e = some p → e.attempts < e.limit → p.attempts < p.limit) : QueueLegal (q.filterMap g) where
  short := (List.length_filterMap_le _ _).trans h.short
  oneDigest := by
    rw [List.filter_filterMap]
    have same : q.filterMap (fun e => (g e).filter fun p => decide (p.kind = .digest)) =
        (q.filter fun e => decide (e.kind = .digest)).filterMap g := by
      rw [List.filterMap_filter]
      refine List.filterMap_congr fun e _ => ?_
      cases stays : g e with
      | none => simp
      | some p => simp [Option.filter, kind e p stays]
    rw [same]
    exact (List.length_filterMap_le _ _).trans h.oneDigest
  claimFirst p hp := by
    have behind : p ∈ (q.drop 1).filterMap g := by
      cases q with
      | nil => simp at hp
      | cons e q =>
        rw [List.filterMap_cons] at hp
        split at hp
        · exact List.mem_of_mem_drop hp
        · simpa using hp
    obtain ⟨e, he, stays⟩ := List.mem_filterMap.1 behind
    simpa [TxEntry.urgent, kind e p stays] using h.claimFirst e he
  oneInFlight := by
    rw [List.filter_eq_nil_iff.2]
    · simp
    · intro p hp
      obtain ⟨e, -, stays⟩ := List.mem_filterMap.1 hp
      simp [flight e p stays]
  attempts p hp := by
    obtain ⟨e, he, stays⟩ := List.mem_filterMap.1 hp
    exact attempts e p stays (h.attempts e he)

/-- The entry after a transmission, where it stays: of the kind it was, and not in flight. -/
theorem completed_eq_some {e p : TxEntry} (h : e.completed = some p) :
    p.kind = e.kind ∧ p.inFlight = false ∧ (e.attempts < e.limit → p.attempts < p.limit) := by
  unfold TxEntry.completed at h
  split_ifs at h with flying replaced
  case pos => cases h; exact ⟨rfl, rfl, fun _ => limit_pos _⟩
  case neg => cases h; exact ⟨rfl, by simpa using flying, id⟩

theorem collided_eq_some {e p : TxEntry} (h : e.collided = some p) :
    p.kind = e.kind ∧ p.inFlight = false ∧ (e.attempts < e.limit → p.attempts < p.limit) := by
  unfold TxEntry.collided at h
  split_ifs at h with flying replaced spent
  case pos => cases h; exact ⟨rfl, rfl, fun _ => limit_pos _⟩
  case neg => cases h; exact ⟨rfl, rfl, fun _ => Nat.lt_of_not_le spent⟩
  case neg => cases h; exact ⟨rfl, by simpa using flying, id⟩

/-- A transmission ends with the entries that stay. -/
theorem queueOk_endSending (now : Nat) {g : TxEntry → Option TxEntry} (h : a.queueOk = true) (sending : a.tx = .sending)
    (stays : ∀ e p, g e = some p → p.kind = e.kind ∧ p.inFlight = false ∧ (e.attempts < e.limit → p.attempts < p.limit)) :
    (a.endSending now (a.queue.filterMap g)).queueOk = true := by
  obtain ⟨legal, fits⟩ := queueOk_iff.1 h
  refine queueOk_iff.2 ⟨legal.filterMap (fun e p s => (stays e p s).1) (fun e p s => (stays e p s).2.1)
    (fun e p s => (stays e p s).2.2), .inr fun p hp => ?_, ?_, ?_⟩
  · obtain ⟨e, -, s⟩ := List.mem_filterMap.1 hp
    exact (stays e p s).2.1
  · simp only [Abu.endSending, List.isEmpty_iff]
    split <;> simp_all
  · have no_deferral : ¬ a.deferral.isSome = true := mt fits.deferral.1 (by simp [sending])
    simp only [Abu.endSending, no_deferral]
    split <;> simp

theorem queueOk_complete (now : Nat) (h : a.queueOk = true) (sending : a.tx = .sending) : (a.complete now).queueOk = true :=
  queueOk_endSending now h sending fun _ _ => completed_eq_some

theorem queueOk_collide (now : Nat) (h : a.queueOk = true) (sending : a.tx = .sending) : (a.collide now).queueOk = true :=
  queueOk_endSending (a := { a with tally := _ }) now h sending fun _ _ => collided_eq_some

/-! ### The bus unit's two conditions together -/

/-- The queue is legal and the tally is in range. -/
structure Abu.Ok (a : Abu) : Prop where
  queue : a.queueOk = true
  tally : a.tally.ok = true

/-- The receiver's own fields, and counts that are in range, have no part in either condition. -/
theorem Abu.Ok.receive (h : a.Ok) {t : Tally} (tally : t.ok = true) (rx : RxState) (taken : List Byte) (lastByteEnd : Nat) :
    ({ a with rx, taken, lastByteEnd, tally := t } : Abu).Ok := ⟨h.queue, tally⟩

theorem Abu.Ok.offerNew (h : a.Ok) (now : Nat) {e : TxEntry} (offer : Offerable e a.queue) : (a.offerNew c now e).Ok where
  queue := queueOk_offerNew now h.queue offer
  tally := by
    have dropped : a.tally.bumpDropped.ok = true := (tally_ok_bump h.tally).dropped
    unfold Abu.offerNew
    split_ifs <;> simp [h.tally, dropped]

theorem Abu.Ok.offerReply (h : a.Ok) (now dest : Nat) (body : List Byte) :
    (a.offerNew c now (TxEntry.fresh .reply dest body)).Ok :=
  h.offerNew now ⟨rfl, rfl, fun reply => absurd rfl reply⟩

theorem Abu.Ok.offerSingle (h : a.Ok) (now : Nat) (kind : TxKind) (body : List Byte) : (a.offerSingle c now kind body).Ok where
  queue := queueOk_offerSingle now kind body h.queue
  tally := by
    unfold Abu.offerSingle
    split
    case isTrue => exact h.tally
    case isFalse none_queued =>
      refine (h.offerNew now ⟨rfl, rfl, fun _ p hp same => none_queued ?_⟩).tally
      exact List.any_eq_true.2 ⟨p, hp, decide_eq_true same⟩

theorem Abu.Ok.supersede (h : a.Ok) (source : Nat) : (a.supersede source).Ok where
  queue := queueOk_supersede source h.queue
  tally := by
    unfold Abu.supersede
    dsimp only
    split
    · exact (tally_ok_bump h.tally).superseded
    · exact h.tally

theorem Abu.Ok.complete (h : a.Ok) (now : Nat) (sending : a.tx = .sending) : (a.complete now).Ok :=
  ⟨queueOk_complete now h.queue sending, h.tally⟩

theorem Abu.Ok.collide (h : a.Ok) (now : Nat) (sending : a.tx = .sending) : (a.collide now).Ok where
  queue := queueOk_collide now h.queue sending
  tally := by
    have collisions : a.tally.bumpCollisions.ok = true := (tally_ok_bump h.tally).collisions
    unfold Abu.collide Abu.endSending
    dsimp only
    split
    · exact (tally_ok_bump collisions).dropped
    · exact collisions

theorem Abu.Ok.readBackByte (h : a.Ok) (now : Nat) (b : Byte) (stopError : Bool) (sending : a.tx = .sending) :
    (a.readBackByte now b stopError).Ok := by
  unfold Abu.readBackByte
  split
  · exact h.collide now sending
  · split
    · exact h.complete now sending
    · exact ⟨h.queue, h.tally⟩

/-- A byte ends a deferral: the entry waits. -/
theorem Abu.Ok.noteByte (h : a.Ok) (now : Nat) : (a.noteByte now).Ok where
  queue := by
    obtain ⟨legal, fits⟩ := queueOk_iff.1 h.queue
    unfold Abu.noteByte
    by_cases deferring : a.tx = .deferring
    · have queued : a.queue ≠ [] := mt fits.empty.1 (by simp [deferring])
      simp only [deferring, if_true]
      exact queueOk_iff.2 ⟨legal, .inr (fits.inFlight.resolve_left (by simp [deferring])), by simp [queued], by simp⟩
    · simp only [deferring, if_false]
      exact queueOk_iff.2 ⟨legal, fits.inFlight, fits.empty, fits.deferral⟩
  tally := h.tally

theorem Abu.Ok.discardByte (h : a.Ok) : a.discardByte.Ok := h.receive (tally_ok_bump h.tally).byte _ _ _

theorem Abu.Ok.headerByte (h : a.Ok) (b : Byte) : (a.headerByte b).Ok := by
  unfold Abu.headerByte
  split
  · exact h.receive h.tally _ _ _
  · exact h.receive (tally_ok_bump h.tally).header _ _ _

theorem Abu.Ok.gapExpired (h : a.Ok) (now : Nat) : (a.gapExpired c now).Ok := by
  unfold Abu.gapExpired
  split
  case isTrue => exact h
  case isFalse quiet =>
    rw [not_or, not_or] at quiet
    obtain ⟨legal, fits⟩ := queueOk_iff.1 h.queue
    have tally : (if a.rx = .gapWait then a.tally else a.tally.bumpByte).ok = true := by
      split
      · exact h.tally
      · exact (tally_ok_bump h.tally).byte
    refine ⟨?_, by simpa using tally⟩
    by_cases queued : a.queue = []
    · simp only [Abu.beginDeferral, queued]
      exact queueOk_iff.2 ⟨queued ▸ legal, by simp, by simpa [queued] using fits.empty, fits.deferral⟩
    · exact queueOk_beginDeferral now legal (fits.inFlight.resolve_left quiet.1) queued

theorem Abu.Ok.deferralExpired (h : a.Ok) (now : Nat) : (a.deferralExpired c now).Ok := by
  unfold Abu.deferralExpired
  split
  · exact h
  · split
    case isFalse => exact h
    case isTrue expired =>
      obtain ⟨legal, fits⟩ := queueOk_iff.1 h.queue
      have idle := fits.inFlight.resolve_left (by simp [expired.1])
      exact ⟨queueOk_startSending legal idle (mt fits.empty.1 (by simp [expired.1])), by simpa using h.tally⟩

/-- With the queue emptied, the transmitter EMPTY and no deferral, nothing is left to be wrong. -/
theorem Abu.Ok.emptied (h : a.Ok) (silent : Bool) :
    ({ a with silent, queue := [], tx := .empty, deferral := none } : Abu).Ok :=
  ⟨queueOk_iff.2 ⟨queueLegal_nil, by simp, by simp, by simp⟩, h.tally⟩

theorem abu_ok_reset (draws : Nat) : (Abu.reset draws).Ok :=
  ⟨queueOk_iff.2 ⟨queueLegal_nil, ⟨.inr (by simp [Abu.reset]), by simp [Abu.reset], by simp [Abu.reset]⟩⟩, rfl⟩

end

end Sys2Proof.Machine
end

section
/-! Proofs: the peer table, the rival list and the window accumulator stay within their bounds (R10, R16, R44, R104). -/

namespace Sys2Proof.Machine

/-! ### The peer table (R44, R48 to R51) -/

theorem ascending_iff {l : List Nat} : ascending l = true ↔ l.Pairwise (· < ·) := by
  induction l with
  | nil => simp [ascending]
  | cons n l ih => simp [ascending, ih]

/-- The station that no entry may be of: in UNCOMMISSIONED there is no entry at all. -/
def PeersLegal (c : Option Settings) (p : Ptb) : Prop :=
  p.entries.length ≤ 24 ∧ (p.entries.map PeerEntry.station).Pairwise (· < ·) ∧ p.overflow ≤ 65535 ∧
    (match c with
      | none => p.entries = []
      | some c => ∀ e ∈ p.entries, e.station ≠ c.station)

theorem peersOk_iff {s : State} : s.peersOk = true ↔ PeersLegal s.settings s.ptb := by
  unfold State.peersOk PeersLegal
  cases s.settings <;> simp [ascending_iff, and_assoc]

/-- Fewer entries than a legal table has, in the same order. -/
theorem PeersLegal.sublist {c : Option Settings} {p : Ptb} (h : PeersLegal c p) {l : List PeerEntry}
    (sub : (l.map PeerEntry.station).Sublist (p.entries.map PeerEntry.station)) : PeersLegal c { p with entries := l } := by
  obtain ⟨length, order, overflow, own⟩ := h
  have shorter : l.length ≤ p.entries.length := by simpa using sub.length_le
  refine ⟨shorter.trans length, order.sublist sub, overflow, ?_⟩
  cases c with
  | none =>
    have none_before : p.entries = [] := own
    rw [none_before] at shorter
    exact List.eq_nil_of_length_eq_zero (Nat.le_zero.1 shorter)
  | some c =>
    intro e he
    obtain ⟨q, hq, same⟩ := List.mem_map.1 (sub.subset (List.mem_map_of_mem he))
    rw [← same]
    exact own q hq

/-- Entries changed in place, each of the station it was. -/
theorem PeersLegal.map {c : Option Settings} {p : Ptb} (h : PeersLegal c p) {g : PeerEntry → PeerEntry}
    (station : ∀ e, (g e).station = e.station) : PeersLegal c { p with entries := p.entries.map g } := by
  refine h.sublist ?_
  rw [List.map_map, show PeerEntry.station ∘ g = PeerEntry.station from funext station]

theorem peersLegal_heard {c : Option Settings} {p : Ptb} (station : Nat) (now : Ms) (h : PeersLegal c p) :
    PeersLegal c (p.heard station now) :=
  h.map fun e => by split <;> rfl

theorem peersLegal_age {c : Settings} {p : Ptb} (d : Option Settings) (now : Ms) (h : PeersLegal d p) :
    PeersLegal d (p.age c now) := by
  refine h.sublist ?_
  have same : ∀ e q : PeerEntry, e.aged c now = some q → q.station = e.station := by
    intro e q stays
    unfold PeerEntry.aged at stays
    split_ifs at stays <;> cases stays <;> rfl
  show ((p.entries.filterMap _).map _).Sublist _
  induction p.entries with
  | nil => simp
  | cons e l ih =>
    rw [List.filterMap_cons]
    split
    · exact ih.cons _
    case h_2 q stays =>
      rw [List.map_cons, List.map_cons, same e q stays]
      exact ih.cons_cons _

theorem station_insertPeer (e : PeerEntry) (l : List PeerEntry) : (insertPeer e l).Perm (e :: l) := by
  induction l with
  | nil => exact .refl _
  | cons q l ih =>
    unfold insertPeer
    split
    · exact .refl _
    · exact (ih.cons q).trans (.swap e q l)

/-- A station that is not listed yet finds its place in the order. -/
theorem ascending_insertPeer {e : PeerEntry} {l : List PeerEntry} (order : (l.map PeerEntry.station).Pairwise (· < ·))
    (new : ∀ q ∈ l, q.station ≠ e.station) : ((insertPeer e l).map PeerEntry.station).Pairwise (· < ·) := by
  induction l with
  | nil => simp [insertPeer]
  | cons q l ih =>
    rw [List.map_cons, List.pairwise_cons] at order
    have other := new q List.mem_cons_self
    unfold insertPeer
    split
    case isTrue before =>
      rw [List.map_cons, List.map_cons, List.pairwise_cons, List.pairwise_cons]
      refine ⟨fun n hn => ?_, order⟩
      rcases List.mem_cons.1 hn with rfl | hn
      · exact before
      · exact before.trans (order.1 n hn)
    case isFalse behind =>
      rw [List.map_cons, List.pairwise_cons]
      refine ⟨fun n hn => ?_, ih order.2 fun p hp => new p (List.mem_cons_of_mem _ hp)⟩
      rcases List.mem_cons.1 (((station_insertPeer e l).map PeerEntry.station).mem_iff.1 hn) with rfl | hn
      · omega
      · exact order.1 n hn

theorem PeersLegal.insert {c : Settings} {p : Ptb} (h : PeersLegal (some c) p) {e : PeerEntry} (foreign : e.station ≠ c.station)
    (new : ∀ q ∈ p.entries, q.station ≠ e.station) (room : p.entries.length < 24) :
    PeersLegal (some c) { p with entries := insertPeer e p.entries } := by
  obtain ⟨-, order, overflow, own⟩ := h
  refine ⟨?_, ascending_insertPeer order new, overflow, fun q hq => ?_⟩
  · rw [(station_insertPeer e p.entries).length_eq]
    exact room
  · rcases List.mem_cons.1 ((station_insertPeer e p.entries).mem_iff.1 hq) with rfl | hq
    · exact foreign
    · exact own q hq

theorem knows_iff {p : Ptb} {station : Nat} : p.knows station = true ↔ ∃ e ∈ p.entries, e.station = station := by
  simp [Ptb.knows]

/-- The entry heard longest ago is an entry. -/
theorem mem_of_oldestHeard {now : Ms} {l : List PeerEntry} {q : PeerEntry} (h : oldestHeard now l = some q) : q ∈ l := by
  induction l generalizing q with
  | nil => cases h
  | cons e l ih =>
    unfold oldestHeard at h
    split at h
    · cases h
      exact List.mem_cons_self
    case h_2 r rest =>
      split at h
      · cases h
        exact List.mem_cons_of_mem _ (ih rest)
      · cases h
        exact List.mem_cons_self

theorem peersLegal_enroll {c : Settings} {p : Ptb} {e : PeerEntry} {now : Ms} (h : PeersLegal (some c) p)
    (foreign : e.station ≠ c.station) : PeersLegal (some c) (p.enroll c e now) := by
  unfold Ptb.enroll
  split
  case isTrue =>
    refine h.map fun q => ?_
    split
    case isTrue same => exact same.symm
    case isFalse => rfl
  case isFalse unknown =>
    have new : ∀ q ∈ p.entries, q.station ≠ e.station := fun q hq same => unknown (knows_iff.2 ⟨q, hq, same⟩)
    split
    case isTrue room => exact h.insert foreign new room
    case isFalse full =>
      split
      case h_1 => exact h
      case h_2 q oldest =>
        split
        · obtain ⟨length, order, overflow, own⟩ := h
          exact ⟨length, order, satSucc_le overflow, own⟩
        · have fewer : (p.entries.filter fun r => decide (r.station ≠ q.station)).length < p.entries.length :=
            List.length_filter_lt_length_iff_exists.2 ⟨q, mem_of_oldestHeard oldest, by simp⟩
          have kept := h.sublist (List.filter_sublist (p := fun r => decide (r.station ≠ q.station)).map PeerEntry.station)
          exact kept.insert foreign (fun r hr => new r (List.mem_of_mem_filter hr)) (fewer.trans_le h.1)

/-! ### The rival list (R104) -/

/-- At most 8 entries, one of each station. -/
def RivalsLegal (l : List Rival) : Prop := l.length ≤ 8 ∧ (l.map Rival.station).Nodup

theorem rivalsOk_iff {s : State} : s.rivalsOk = true ↔ RivalsLegal s.acu.rivals := by
  simp [State.rivalsOk, RivalsLegal]

theorem RivalsLegal.sublist {l m : List Rival} (h : RivalsLegal l) (sub : m.Sublist l) : RivalsLegal m :=
  ⟨sub.length_le.trans h.1, h.2.sublist (sub.map _)⟩

theorem RivalsLegal.append {l : List Rival} {r : Rival} (h : RivalsLegal l) (room : l.length < 8)
    (new : ∀ q ∈ l, q.station ≠ r.station) : RivalsLegal (l ++ [r]) := by
  refine ⟨by simpa using room, ?_⟩
  rw [List.map_append, List.nodup_append]
  refine ⟨h.2, by simp, fun n hn m hm => ?_⟩
  obtain ⟨q, hq, rfl⟩ := List.mem_map.1 hn
  rw [List.mem_singleton.1 hm]
  exact new q hq

theorem rivalsLegal_enterRival {r : Rival} {l : List Rival} (h : RivalsLegal l) : RivalsLegal (enterRival r l) := by
  unfold enterRival
  split
  case isTrue listed =>
    obtain ⟨q, hq, same⟩ := List.any_eq_true.1 listed
    have fewer : (l.filter fun q => decide (q.station ≠ r.station)).length < l.length :=
      List.length_filter_lt_length_iff_exists.2 ⟨q, hq, by simpa using same⟩
    exact (h.sublist List.filter_sublist).append (fewer.trans_le h.1) fun p hp => by simpa using (List.mem_filter.1 hp).2
  case isFalse unlisted =>
    have new : ∀ q ∈ l, q.station ≠ r.station := fun q hq same =>
      unlisted (List.any_eq_true.2 ⟨q, hq, decide_eq_true same⟩)
    split
    case isTrue =>
      have length := h.1
      exact (h.sublist (List.drop_sublist 1 l)).append (by rw [List.length_drop]; omega) fun q hq =>
        new q (List.mem_of_mem_drop hq)
    case isFalse room => exact h.append (by omega) new

/-! ### The window accumulator (R10, R16) -/

theorem wac_ok_iff {w : Wac} : w.ok = true ↔ w.count ≤ 64 ∧ w.mismatchRun ≤ 1 ∧ w.matchRun ≤ 1 := by
  simp [Wac.ok, and_assoc]

/-- The condition reads three fields alone. -/
theorem wac_ok_congr {v w : Wac} (count : v.count = w.count) (mismatch : v.mismatchRun = w.mismatchRun)
    (matched : v.matchRun = w.matchRun) : v.ok = w.ok := by
  rw [Wac.ok, Wac.ok, count, mismatch, matched]

theorem wac_ok_boxChecked {w : Wac} (isMatch : Bool) (h : w.ok = true) : (w.boxChecked isMatch).ok = true := by
  obtain ⟨count, mismatch, matched⟩ := wac_ok_iff.1 h
  unfold Wac.boxChecked
  split_ifs <;> exact wac_ok_iff.2 (by simp [count, mismatch, matched])

theorem wac_ok_closeWindow {w : Wac} (h : w.ok = true) : w.closeWindow.openWindow.ok = true := by
  have closed : w.closeWindow.ok = true := by
    unfold Wac.closeWindow
    dsimp only
    split
    · exact h
    · exact wac_ok_boxChecked _ h
  obtain ⟨-, runs⟩ := wac_ok_iff.1 closed
  exact wac_ok_iff.2 ⟨Nat.zero_le _, runs⟩

theorem wac_ok_addSample {x : Sfe} {closed : StringIdx → Bool} {w : Wac} (h : w.ok = true) (room : w.count < 64) :
    (w.addSample x closed).endWindow.ok = true := by
  have added : (w.addSample x closed).ok = true := wac_ok_iff.2 ⟨room, (wac_ok_iff.1 h).2⟩
  unfold Wac.endWindow
  split
  · exact added
  · exact added

theorem wac_ok_countTick (c : Settings) {w : Wac} (h : w.ok = true) : (w.countTick c).ok = true := by
  unfold Wac.countTick
  split
  · exact h
  · split <;> exact h

end Sys2Proof.Machine
end

section
/-! Proofs: each operation of a sequencer keeps a string's path part whole (R118, R119), and a whole path part with its relay open has
its drive at 0 (R127). -/

namespace Sys2Proof.Machine

/-! ### What a whole path part is, state by state (the table of R118) -/

section
variable {p : Path}

theorem path_ok_closed (h : p.state = .closed) :
    p.ok = true ↔ p.level = 255 ∧ p.stepCount = none ∧ p.stepsLeft = none ∧ p.deadline = none ∧ p.reason = none ∧
      p.isolationStart = none := by
  simp [Path.ok, h, and_assoc]

theorem path_ok_opening (h : p.state = .opening) :
    p.ok = true ↔ (∃ n k, p.stepCount = some n ∧ p.stepsLeft = some k ∧ (1 ≤ n ∧ n ≤ 16) ∧ 1 ≤ k ∧ k ≤ n) ∧ p.level ≤ 255 ∧
      p.deadline.isSome = true ∧ p.reason.isSome = true ∧ p.isolationStart.isSome = true := by
  simp only [Path.ok, h]
  cases p.stepCount <;> cases p.stepsLeft <;> simp [inRange_iff, and_assoc]

/-- CONFIRMING and PARTING ask for the same. -/
theorem path_ok_waiting (h : p.state = .confirming ∨ p.state = .parting) :
    p.ok = true ↔ p.level = 0 ∧ p.stepCount = none ∧ p.stepsLeft = none ∧ p.deadline.isSome = true ∧ p.reason.isSome = true ∧
      p.isolationStart.isSome = true := by
  rcases h with h | h <;> simp [Path.ok, h, and_assoc]

theorem path_ok_isolated (h : p.state = .isolated) :
    p.ok = true ↔ p.level = 0 ∧ p.stepCount = none ∧ p.stepsLeft = none ∧ p.deadline = none ∧ p.reason.isSome = true := by
  simp [Path.ok, h, and_assoc]

theorem path_ok_making (h : p.state = .making) :
    p.ok = true ↔ p.level = 0 ∧ p.stepCount = none ∧ p.stepsLeft = none ∧ p.deadline.isSome = true ∧ p.reason.isSome = true ∧
      p.isolationStart = none := by
  simp [Path.ok, h, and_assoc]

theorem path_ok_closing (h : p.state = .closing) :
    p.ok = true ↔ (∃ n k, p.stepCount = some n ∧ p.stepsLeft = some k ∧ (1 ≤ n ∧ n ≤ 16) ∧ (1 ≤ k ∧ k ≤ n) ∧
        p.level = (n - k) * (255 / n)) ∧ p.deadline.isSome = true ∧ p.reason.isSome = true ∧ p.isolationStart = none := by
  simp only [Path.ok, h]
  cases p.stepCount <;> cases p.stepsLeft <;> simp [inRange_iff, and_assoc]

theorem path_ok_stuck (h : p.state = .stuck) :
    p.ok = true ↔ p.level = 0 ∧ p.stepCount = none ∧ p.stepsLeft = none ∧ p.deadline = none ∧ p.reason.isSome = true ∧
      p.isolationStart.isSome = true := by
  simp [Path.ok, h, and_assoc]

/-! ### Relays and drives (R127) -/

/-- In PARTING and ISOLATED, where the relay is open, a whole path part has its drive at 0. -/
theorem level_zero_of_relayOpen (ok : p.ok = true) (relay : p.relayOpen = true) : p.level = 0 := by
  simp only [Path.relayOpen, Bool.or_eq_true, decide_eq_true_eq] at relay
  rcases relay with parting | isolated
  · exact ((path_ok_waiting (.inr parting)).1 ok).1
  · exact ((path_ok_isolated isolated).1 ok).1

theorem relaysSafe_of_paths {s : State} (h : ∀ i, (s.path i).ok = true) : s.relaysSafe = true := by
  rw [State.relaysSafe, all_strings]
  intro i
  by_cases relay : (s.path i).relayOpen = true
  · simp [level_zero_of_relayOpen (h i) relay]
  · simp [relay]

/-! ### The operations -/

/-- The level of a ramp up before its last step is no more than full. -/
theorem rampUp_le (n k : Nat) : (n - k) * (255 / n) ≤ 255 := by
  calc (n - k) * (255 / n) ≤ n * (255 / n) := Nat.mul_le_mul_right _ (Nat.sub_le n k)
    _ ≤ 255 := Nat.mul_div_le 255 n

/-- The isolation of a string from a level. -/
theorem path_ok_beginOpening (now : Ms) (reason : Reason) {n : Nat} (steps : 1 ≤ n ∧ n ≤ 16) (level : Nat) (full : p.level ≤ 255) :
    (p.beginOpening now reason n level).ok = true :=
  (path_ok_opening rfl).2 ⟨⟨n, _, rfl, rfl, steps, rampDownSteps_range level steps.1⟩, full, rfl, rfl, rfl⟩

theorem path_ok_demanded (now : Ms) (reason : Reason) {n : Nat} (steps : 1 ≤ n ∧ n ≤ 16) (h : p.ok = true) :
    (p.demanded now reason n).ok = true := by
  unfold Path.demanded
  split
  case h_1 state =>
    exact path_ok_beginOpening now reason steps 255 (le_of_eq ((path_ok_closed state).1 h).1)
  case h_2 state =>
    obtain ⟨⟨m, k, -, -, -, -, level⟩, -⟩ := (path_ok_closing state).1 h
    exact path_ok_beginOpening now reason steps p.level (level ▸ rampUp_le m k)
  case h_3 state =>
    obtain ⟨level, count, left, -, -, -⟩ := (path_ok_making state).1 h
    exact (path_ok_waiting (.inr rfl)).2 ⟨level, count, left, rfl, rfl, rfl⟩
  case h_4 state =>
    split
    · obtain ⟨-, level, present⟩ := (path_ok_opening state).1 h
      exact (path_ok_opening (by exact state)).2 ⟨⟨1, 1, rfl, rfl, by decide, by decide⟩, level, present⟩
    · exact h
  all_goals exact h

/-- A step down: the last leads to CONFIRMING, and before it a step less remains. -/
theorem path_ok_openingStep (now : Ms) (state : p.state = .opening) (h : p.ok = true) : (p.openingStep now).ok = true := by
  obtain ⟨⟨n, k, count, left, steps, remain⟩, level, deadline, reason, isolation⟩ := (path_ok_opening state).1 h
  unfold Path.openingStep
  simp only [count, left, Option.getD_some]
  split
  case isTrue => exact (path_ok_waiting (.inl rfl)).2 ⟨rfl, rfl, rfl, rfl, reason, isolation⟩
  case isFalse above =>
    have more : k ≠ 1 := fun last => above (by simp [stepDown, last])
    have lower : stepDown p.level n k ≤ 255 := by
      rw [stepDown, if_neg more]
      omega
    exact (path_ok_opening (by exact state)).2 ⟨⟨n, k - 1, rfl, rfl, steps, by omega, by omega⟩, lower, by simpa using deadline, reason,
      isolation⟩

/-- A step up: the last leads to CLOSED, and before it the level is one increment more. -/
theorem path_ok_closingStep (state : p.state = .closing) (h : p.ok = true) : p.closingStep.ok = true := by
  obtain ⟨⟨n, k, count, left, steps, remain, level⟩, deadline, reason, isolation⟩ := (path_ok_closing state).1 h
  unfold Path.closingStep
  simp only [count, left, Option.getD_some]
  split
  case isTrue => exact (path_ok_closed rfl).2 ⟨rfl, rfl, rfl, rfl, rfl, isolation⟩
  case isFalse below =>
    have more : k ≠ 1 := fun last => below (by simp [stepUp, last])
    have higher : stepUp p.level n k = (n - (k - 1)) * (255 / n) := by
      have one_more : n - (k - 1) = n - k + 1 := by omega
      rw [stepUp, if_neg more, level, one_more, Nat.add_mul, Nat.one_mul, rampIncrement]
    exact (path_ok_closing (by exact state)).2 ⟨⟨n, k - 1, rfl, rfl, steps, by omega, higher⟩, by simpa using deadline, reason, isolation⟩

/-- The zero band ends the waiting in CONFIRMING and in STUCK. -/
theorem path_ok_parting (deadline : Ms) (state : p.state = .confirming ∨ p.state = .stuck) (h : p.ok = true) :
    ({ p with state := .parting, deadline := some deadline } : Path).ok = true := by
  have present : p.level = 0 ∧ p.stepCount = none ∧ p.stepsLeft = none ∧ p.reason.isSome = true ∧ p.isolationStart.isSome = true := by
    rcases state with state | state
    · obtain ⟨level, count, left, -, reason, isolation⟩ := (path_ok_waiting (.inl state)).1 h
      exact ⟨level, count, left, reason, isolation⟩
    · obtain ⟨level, count, left, -, reason, isolation⟩ := (path_ok_stuck state).1 h
      exact ⟨level, count, left, reason, isolation⟩
  obtain ⟨level, count, left, reason, isolation⟩ := present
  exact (path_ok_waiting (.inr rfl)).2 ⟨level, count, left, rfl, reason, isolation⟩

theorem path_ok_enterStuck (state : p.state = .confirming) (h : p.ok = true) :
    ({ p with state := .stuck, deadline := none } : Path).ok = true := by
  obtain ⟨level, count, left, -, reason, isolation⟩ := (path_ok_waiting (.inl state)).1 h
  exact (path_ok_stuck rfl).2 ⟨level, count, left, rfl, reason, isolation⟩

theorem path_ok_enterIsolated (state : p.state = .parting) (h : p.ok = true) :
    ({ p with state := .isolated, deadline := none } : Path).ok = true := by
  obtain ⟨level, count, left, -, reason, -⟩ := (path_ok_waiting (.inr state)).1 h
  exact (path_ok_isolated rfl).2 ⟨level, count, left, rfl, reason⟩

theorem path_ok_enterMaking (deadline : Ms) (state : p.state = .isolated) (h : p.ok = true) :
    ({ p with state := .making, deadline := some deadline, isolationStart := none } : Path).ok = true := by
  obtain ⟨level, count, left, -, reason⟩ := (path_ok_isolated state).1 h
  exact (path_ok_making rfl).2 ⟨level, count, left, rfl, reason, rfl⟩

theorem path_ok_enterClosing (deadline : Ms) {n : Nat} (steps : 1 ≤ n ∧ n ≤ 16) (state : p.state = .making) (h : p.ok = true) :
    ({ p with state := .closing, stepCount := some n, stepsLeft := some n, deadline := some deadline } : Path).ok = true := by
  obtain ⟨level, -, -, -, reason, isolation⟩ := (path_ok_making state).1 h
  exact (path_ok_closing rfl).2 ⟨⟨n, n, rfl, rfl, steps, ⟨steps.1, le_refl n⟩, by simp [level]⟩, rfl, reason, isolation⟩

end

/-! ### The condition on the whole state -/

theorem pathsOk_iff {s : State} :
    s.pathsOk = true ↔ (∀ c, s.settings = some c → 1 ≤ c.rampSteps ∧ c.rampSteps ≤ 16) ∧
      (∀ d ∈ s.demands, 1 ≤ d.steps ∧ d.steps ≤ 16) ∧ ∀ i, (s.path i).ok = true := by
  unfold State.pathsOk
  cases s.settings <;> simp [StringIdx.mem_all, inRange_iff, and_assoc]

end Sys2Proof.Machine
end

section
/-! Proofs: each change of a hold part keeps it in order (R139, R143, R144). -/

namespace Sys2Proof.Machine

/-- The hold part of one string is in order: VOLTAGE_WAIT alone, the retry count within the budget, no hold where the string is not
present, and closed-since present exactly in CLOSED. -/
structure HoldLegal (budget : Nat) (present closed : Bool) (h : Hold) : Prop where
  waitAlone : h.voltageRecheck = none ∨
    (h.lockout = false ∧ h.manual = false ∧ h.shutdown = false ∧ h.startupUntil = none ∧ h.retryUntil = none)
  retries : h.retryCount ≤ budget
  absent : present = true ∨ h.empty = true
  since : h.closedSince.isSome = closed

theorem hold_empty_iff {h : Hold} :
    h.empty = true ↔ h.lockout = false ∧ h.manual = false ∧ h.shutdown = false ∧ h.startupUntil = none ∧ h.retryUntil = none ∧
      h.voltageRecheck = none := by
  simp [Hold.empty, and_assoc]

theorem voltageWaitAlone_iff {h : Hold} :
    h.voltageWaitAlone = true ↔ h.lockout = false ∧ h.manual = false ∧ h.shutdown = false ∧ h.startupUntil = none ∧
      h.retryUntil = none ∧ h.voltageRecheck ≠ none := by
  simp [Hold.voltageWaitAlone, and_assoc, Option.isSome_iff_ne_none]

theorem holdsOk_iff {s : State} :
    s.holdsOk = true ↔ ∀ i, HoldLegal s.retryBudget (s.present i) (decide ((s.path i).state = .closed)) (s.hold i) := by
  rw [State.holdsOk, all_strings]
  refine forall_congr' fun i => ?_
  simp only [Hold.ok, Bool.and_eq_true, Bool.or_eq_true, decide_eq_true_eq, Option.isNone_iff_eq_none, voltageWaitAlone_iff]
  constructor
  · rintro ⟨⟨⟨wait, retries⟩, absent⟩, since⟩
    exact ⟨wait.imp_right fun ⟨a, b, c, d, e, _⟩ => ⟨a, b, c, d, e⟩, retries, absent, since⟩
  · rintro ⟨wait, retries, absent, since⟩
    refine ⟨⟨⟨?_, retries⟩, absent⟩, since⟩
    by_cases recheck : (s.hold i).voltageRecheck = none
    · exact .inl recheck
    · obtain ⟨a, b, c, d, e⟩ := wait.resolve_left recheck
      exact .inr ⟨a, b, c, d, e, recheck⟩

section
variable {budget : Nat} {closed : Bool} {h : Hold}

/-- Any change of the holds that leaves VOLTAGE_WAIT absent is in order on a present string. -/
theorem HoldLegal.write (legal : HoldLegal budget true closed h) {g : Hold} (recheck : g.voltageRecheck = none)
    (retries : g.retryCount ≤ budget) (since : g.closedSince = h.closedSince) : HoldLegal budget true closed g :=
  ⟨.inl recheck, retries, .inl rfl, by rw [since, legal.since]⟩

theorem HoldLegal.addLockout (legal : HoldLegal budget true closed h) : HoldLegal budget true closed h.addLockout :=
  legal.write rfl legal.retries rfl

theorem HoldLegal.addManual (legal : HoldLegal budget true closed h) : HoldLegal budget true closed h.addManual :=
  legal.write rfl legal.retries rfl

theorem HoldLegal.addShutdown (legal : HoldLegal budget true closed h) : HoldLegal budget true closed h.addShutdown :=
  legal.write rfl legal.retries rfl

theorem HoldLegal.released (legal : HoldLegal budget true closed h) : HoldLegal budget true closed h.released :=
  legal.write rfl (Nat.zero_le _) rfl

theorem HoldLegal.consequence {c : Settings} (now : Ms) (k : Consequence) (legal : HoldLegal c.retryBudget true closed h) :
    HoldLegal c.retryBudget true closed (h.consequence c now k) := by
  unfold Hold.consequence
  cases k with
  | retryOrLockout =>
    dsimp only
    split
    case isTrue more => exact legal.write rfl more rfl
    case isFalse => exact legal.addLockout
  | lockout => exact legal.addLockout
  | lockoutSuspect => exact legal.write rfl legal.retries rfl
  | nothing => exact legal

/-- A string without a hold gets VOLTAGE_WAIT. -/
theorem HoldLegal.beginWait (legal : HoldLegal budget true closed h) (empty : h.empty = true) (recheck : Ms) :
    HoldLegal budget true closed { h with voltageRecheck := some recheck } := by
  obtain ⟨lockout, manual, shutdown, startup, retry, -⟩ := hold_empty_iff.1 empty
  exact ⟨.inr ⟨lockout, manual, shutdown, startup, retry⟩, legal.retries, .inl rfl, legal.since⟩

variable {present : Bool}

/-- A string with VOLTAGE_WAIT alone keeps it, with another moment of the recheck. -/
theorem HoldLegal.renewWait (legal : HoldLegal budget present closed h) (alone : h.voltageWaitAlone = true) (recheck : Ms) :
    HoldLegal budget present closed { h with voltageRecheck := some recheck } := by
  obtain ⟨lockout, manual, shutdown, startup, retry, waits⟩ := voltageWaitAlone_iff.1 alone
  have held : ¬ h.empty = true := by
    rw [hold_empty_iff]
    rintro ⟨-, -, -, -, -, none_waits⟩
    exact waits none_waits
  have absent := legal.absent.resolve_right held
  exact ⟨.inr ⟨lockout, manual, shutdown, startup, retry⟩, legal.retries, .inl absent, legal.since⟩

/-- The examination at a window close writes the retry count and, in CLOSED, closed-since. -/
theorem HoldLegal.examined (c : Settings) (now : Ms) (strikes : Nat) (legal : HoldLegal budget present true h) :
    HoldLegal budget present true (h.examined c now strikes) := by
  unfold Hold.examined
  split
  · exact ⟨legal.waitAlone, legal.retries, legal.absent, rfl⟩
  · split
    · exact legal
    · split
      · exact ⟨legal.waitAlone, Nat.zero_le _, legal.absent, legal.since⟩
      · exact legal

/-- A timed hold that ends leaves fewer holds. -/
theorem HoldLegal.endRetry (legal : HoldLegal budget present closed h) :
    HoldLegal budget present closed { h with retryUntil := none } where
  waitAlone := legal.waitAlone.imp_right fun ⟨a, b, c, d, _⟩ => ⟨a, b, c, d, rfl⟩
  retries := legal.retries
  absent := legal.absent.imp_right fun (empty : h.empty = true) =>
    let ⟨a, b, c, d, _, f⟩ := hold_empty_iff.1 empty
    hold_empty_iff.2 ⟨a, b, c, d, rfl, f⟩
  since := legal.since

theorem HoldLegal.endStartup (legal : HoldLegal budget present closed h) :
    HoldLegal budget present closed { h with startupUntil := none } where
  waitAlone := legal.waitAlone.imp_right fun ⟨a, b, c, _, e⟩ => ⟨a, b, c, rfl, e⟩
  retries := legal.retries
  absent := legal.absent.imp_right fun (empty : h.empty = true) =>
    let ⟨a, b, c, _, e, f⟩ := hold_empty_iff.1 empty
    hold_empty_iff.2 ⟨a, b, c, rfl, e, f⟩
  since := legal.since

theorem HoldLegal.endWait (legal : HoldLegal budget present closed h) :
    HoldLegal budget present closed { h with voltageRecheck := none } where
  waitAlone := .inl rfl
  retries := legal.retries
  absent := legal.absent.imp_right fun (empty : h.empty = true) =>
    let ⟨a, b, c, d, e, _⟩ := hold_empty_iff.1 empty
    hold_empty_iff.2 ⟨a, b, c, d, e, rfl⟩
  since := legal.since

end

end Sys2Proof.Machine
end

section
/-! Proofs: the strikes below the persistence (R82), and what waits for the Adjudicator (R76). -/

namespace Sys2Proof.Machine

/-- A string's strikes with the settings in force. -/
def StrikesLegal (c : Option Settings) (i : StringIdx) (strikes : Nat) : Prop :=
  match c with
  | none => strikes = 0
  | some c => (2 ≤ c.persistence ∧ c.persistence ≤ 30) ∧ strikes < if c.strings[i].present then c.persistence else 1

theorem strikesOk_iff {s : State} :
    s.strikesOk = true ↔ (∀ a ∈ s.arrivals, Arrival.ok s a = true) ∧ ∀ i, StrikesLegal s.settings i (s.adjOf i).strikes := by
  unfold State.strikesOk StrikesLegal
  cases s.settings <;> simp [StringIdx.mem_all, inRange_iff]

/-- What waits is judged by the present strings alone. -/
theorem arrival_ok_congr {s t : State} (h : ∀ i, t.present i = s.present i) (a : Arrival) : a.ok t = a.ok s := by
  cases a <;> simp [Arrival.ok, h]

/-- Without a strike a string's count is in order. -/
theorem StrikesLegal.zero {c : Option Settings} {i : StringIdx} {n : Nat} (h : StrikesLegal c i n) : StrikesLegal c i 0 := by
  cases c with
  | none => rfl
  | some c =>
    refine ⟨h.1, ?_⟩
    split
    · exact Nat.lt_of_lt_of_le (by decide) h.1.1
    · decide

end Sys2Proof.Machine
end

section
/-! Proofs: what one action of the part keeps. `Kept s t` says that `t` meets every condition of Safety.lean that `s` meets, at the same
moment, with the same settings and the same queue of commands; every operation of the blocks is shown to be of that kind, once, from the
operations it is made of. -/

namespace Sys2Proof.Machine

/-- From `s` to `t`: the same queue, moment and settings, and every condition that `s` meets, but for that of the strikes. -/
structure BlocksKept (s t : State) : Prop where
  pending : t.pending = s.pending
  timeUs : t.timeUs = s.timeUs
  settings : t.settings = s.settings
  paths : s.pathsOk = true → t.pathsOk = true
  trip : s.tripOk = true → t.tripOk = true
  holds : s.holdsOk = true → t.holdsOk = true
  bus : s.abu.Ok → t.abu.Ok
  log : s.flg.ok = true → t.flg.ok = true
  store : Memory.wf s.nvs.store = true → Memory.wf t.nvs.store = true
  peers : s.peersOk = true → t.peersOk = true
  rivals : s.rivalsOk = true → t.rivalsOk = true
  window : s.wac.ok = true → t.wac.ok = true

/-- The same with the condition of the strikes. -/
structure Kept (s t : State) : Prop extends BlocksKept s t where
  strikes : s.strikesOk = true → t.strikesOk = true

theorem BlocksKept.refl (s : State) : BlocksKept s s := ⟨rfl, rfl, rfl, id, id, id, id, id, id, id, id, id⟩

theorem Kept.refl (s : State) : Kept s s := ⟨.refl s, id⟩

theorem BlocksKept.trans {s t u : State} (h : BlocksKept s t) (k : BlocksKept t u) : BlocksKept s u where
  pending := k.pending.trans h.pending
  timeUs := k.timeUs.trans h.timeUs
  settings := k.settings.trans h.settings
  paths := k.paths ∘ h.paths
  trip := k.trip ∘ h.trip
  holds := k.holds ∘ h.holds
  bus := k.bus ∘ h.bus
  log := k.log ∘ h.log
  store := k.store ∘ h.store
  peers := k.peers ∘ h.peers
  rivals := k.rivals ∘ h.rivals
  window := k.window ∘ h.window

theorem Kept.trans {s t u : State} (h : Kept s t) (k : Kept t u) : Kept s u :=
  ⟨h.toBlocksKept.trans k.toBlocksKept, k.strikes ∘ h.strikes⟩

/-- An action after another, with the settings that both find. -/
theorem Kept.andThen {s t u : State} {c : Settings} (h : Kept s t) (settings : s.settings = some c)
    (k : t.settings = some c → Kept t u) : Kept s u := h.trans (k (h.settings.trans settings))

/-- A fold of actions, each of which may lean on the settings in force. -/
theorem BlocksKept.foldl {α : Type} {f : State → α → State} {l : List α} {s : State}
    (h : ∀ t, t.settings = s.settings → ∀ a ∈ l, BlocksKept t (f t a)) : BlocksKept s (l.foldl f s) :=
  List.foldlRecOn (motive := BlocksKept s) l f (.refl s) fun t kept a ha => kept.trans (h t kept.settings a ha)

theorem Kept.foldl {α : Type} {f : State → α → State} {l : List α} {s : State}
    (h : ∀ t, t.settings = s.settings → ∀ a ∈ l, Kept t (f t a)) : Kept s (l.foldl f s) :=
  List.foldlRecOn (motive := Kept s) l f (.refl s) fun t kept a ha => kept.trans (h t kept.settings a ha)

section
variable {s : State}

/-! ### A write of one block: that block's own condition alone is at stake -/

/-- No condition reads the Sense front end, the Reference unit, the requests or the service link. -/
theorem kept_unread (sfe : Sfe) (rfu : Rfu) (requests : List Request) (svl : Svl) :
    Kept s { s with sfe, rfu, requests, svl } :=
  ⟨⟨rfl, rfl, rfl, id, id, id, id, id, id, id, id, id⟩, id⟩

theorem kept_withSfe (x : Sfe) : Kept s (s.withSfe x) := kept_unread x _ _ _
theorem kept_withRfu (x : Rfu) : Kept s (s.withRfu x) := kept_unread _ x _ _
theorem kept_withRequests (x : List Request) : Kept s (s.withRequests x) := kept_unread _ _ x _
theorem kept_withSvl (x : Svl) : Kept s (s.withSvl x) := kept_unread _ _ _ x

theorem kept_withAbu {a : Abu} (h : s.abu.Ok → a.Ok) : Kept s (s.withAbu a) :=
  ⟨⟨rfl, rfl, rfl, id, id, id, h, id, id, id, id, id⟩, id⟩

theorem kept_withFlg {f : Flg} (h : s.flg.ok = true → f.ok = true) : Kept s (s.withFlg f) :=
  ⟨⟨rfl, rfl, rfl, id, id, id, id, h, id, id, id, id⟩, id⟩

theorem kept_withNvs {n : Nvs} (h : Memory.wf s.nvs.store = true → Memory.wf n.store = true) : Kept s (s.withNvs n) :=
  ⟨⟨rfl, rfl, rfl, id, id, id, id, id, h, id, id, id⟩, id⟩

theorem kept_withPtb {p : Ptb} (h : PeersLegal s.settings s.ptb → PeersLegal s.settings p) : Kept s (s.withPtb p) :=
  ⟨⟨rfl, rfl, rfl, id, id, id, id, id, id, fun ok => peersOk_iff.2 (h (peersOk_iff.1 ok)), id, id⟩, id⟩

theorem kept_withWac {w : Wac} (h : s.wac.ok = true → w.ok = true) : Kept s (s.withWac w) :=
  ⟨⟨rfl, rfl, rfl, id, id, id, id, id, id, id, id, h⟩, id⟩

/-- A write of the Arc contest unit that leaves its latch. -/
theorem kept_withAcu {a : Acu} (latch : a.latch = s.acu.latch) (h : RivalsLegal s.acu.rivals → RivalsLegal a.rivals) :
    Kept s (s.withAcu a) := by
  refine ⟨⟨rfl, rfl, rfl, id, ?_, id, id, id, id, id, fun ok => rivalsOk_iff.2 (h (rivalsOk_iff.1 ok)), id⟩, id⟩
  have same : (s.withAcu a).tripOk = s.tripOk := by
    unfold State.tripOk
    rw [State.withAcu_acu, latch]
    rfl
  exact fun ok => same.trans ok

/-- A write of the Hold manager's strings, one by one. -/
theorem kept_withHld {x : Hld}
    (h : ∀ (i : StringIdx) (closed : Bool), HoldLegal s.retryBudget (s.present i) closed (s.hold i) →
      HoldLegal s.retryBudget (s.present i) closed x.strings[i]) : Kept s (s.withHld x) :=
  ⟨⟨rfl, rfl, rfl, id, id, fun ok => holdsOk_iff.2 fun i => h i _ (holdsOk_iff.1 ok i), id, id, id, id, id, id⟩, id⟩

theorem kept_setHold {i : StringIdx} {g : Hold}
    (h : ∀ closed : Bool, HoldLegal s.retryBudget (s.present i) closed (s.hold i) →
      HoldLegal s.retryBudget (s.present i) closed g) : Kept s (s.setHold i g) := by
  refine kept_withHld (x := { s.hld with strings := s.hld.strings.set i g }) fun j closed legal => ?_
  rw [State.get_set]
  split
  case isTrue same =>
    subst same
    exact h closed legal
  case isFalse => exact legal

theorem kept_withArrivals {l : List Arrival} (h : s.strikesOk = true → ∀ a ∈ l, a.ok s = true) : Kept s (s.withArrivals l) := by
  refine ⟨⟨rfl, rfl, rfl, id, id, id, id, id, id, id, id, id⟩, fun ok => ?_⟩
  exact strikesOk_iff.2 ⟨h ok, (strikesOk_iff.1 ok).2⟩

theorem blocksKept_withArrivals (l : List Arrival) : BlocksKept s (s.withArrivals l) :=
  ⟨rfl, rfl, rfl, id, id, id, id, id, id, id, id, id⟩

theorem kept_withDemands {l : List Demand} (h : s.pathsOk = true → ∀ d ∈ l, 1 ≤ d.steps ∧ d.steps ≤ 16) :
    Kept s (s.withDemands l) := by
  refine ⟨⟨rfl, rfl, rfl, fun ok => ?_, id, id, id, id, id, id, id, id⟩, id⟩
  obtain ⟨ramp, -, paths⟩ := pathsOk_iff.1 ok
  exact pathsOk_iff.2 ⟨ramp, h ok, paths⟩

theorem blocksKept_setAdj (i : StringIdx) (a : AdjRecord) : BlocksKept s (s.setAdj i a) :=
  ⟨rfl, rfl, rfl, id, id, id, id, id, id, id, id, id⟩

/-- A write of an adjudication record with a count of strikes that is in order. -/
theorem kept_setAdj {i : StringIdx} {a : AdjRecord}
    (h : StrikesLegal s.settings i (s.adjOf i).strikes → StrikesLegal s.settings i a.strikes) : Kept s (s.setAdj i a) := by
  refine ⟨blocksKept_setAdj i a, fun ok => ?_⟩
  obtain ⟨arrivals, strikes⟩ := strikesOk_iff.1 ok
  refine strikesOk_iff.2 ⟨arrivals, fun j => ?_⟩
  rw [State.adjOf_setAdj]
  split
  case isTrue same => exact same ▸ h (same ▸ strikes j)
  case isFalse => exact strikes j

/-! ### Paths (chapter 7) -/

theorem anyStuck_iff : s.anyStuck = true ↔ ∃ i, (s.path i).state = .stuck := by
  simp [State.anyStuck, StringIdx.mem_all]

theorem tripOk_iff : s.tripOk = true ↔ ((∃ i, (s.path i).state = .stuck) ∨ s.acu.latch = true → s.boxTrip = true) := by
  rw [← anyStuck_iff]
  unfold State.tripOk
  cases s.anyStuck <;> cases s.acu.latch <;> simp

/-- A new path part, whole where the old one was. Into STUCK a string comes by its confirm deadline alone. -/
theorem kept_changePath {i : StringIdx} {p : Path} (whole : s.pathsOk = true → p.ok = true) 
    (stuck : p.state = .stuck → (s.path i).state = .stuck ∨ s.boxTrip = true) :
    Kept s (changePath i p s) where
  pending := by simp
  timeUs := by simp
  settings := by simp
  paths ok := by
    obtain ⟨ramp, demands, paths⟩ := pathsOk_iff.1 ok
    refine pathsOk_iff.2 ⟨by simpa using ramp, by simpa using demands, fun j => ?_⟩
    rw [path_changePath]
    split
    · exact whole ok
    · exact paths j
  trip ok := by
    refine tripOk_iff.2 fun cause => ?_
    simp only [changePath_frame] at cause ⊢
    rcases cause with ⟨j, state⟩ | latch
    · rw [path_changePath] at state
      split at state
      case isTrue => exact (stuck state).elim (fun old => tripOk_iff.1 ok (.inl ⟨i, old⟩)) id
      case isFalse => exact tripOk_iff.1 ok (.inl ⟨j, state⟩)
    · exact tripOk_iff.1 ok (.inr latch)
  holds ok := by
    have budget : (changePath i p s).retryBudget = s.retryBudget := by simp [State.retryBudget]
    refine holdsOk_iff.2 fun j => ?_
    have legal := holdsOk_iff.1 ok j
    have present : (changePath i p s).present j = s.present j := by simp
    rw [budget, present, hold_changePath, path_changePath]
    split
    case isFalse => exact legal
    case isTrue same =>
      subst same
      refine ⟨legal.waitAlone, legal.retries, legal.absent, ?_⟩
      have since := legal.since
      split_ifs <;> simp_all
  bus := by simp
  log := by simp
  store := by simp
  peers := by simp [State.peersOk]
  rivals := by simp [State.rivalsOk]
  window ok := by simpa [Wac.ok] using ok
  strikes ok := by
    obtain ⟨arrivals, strikes⟩ := strikesOk_iff.1 ok
    refine strikesOk_iff.2 ⟨fun a ha => ?_, by simpa using strikes⟩
    rw [arrival_ok_congr (s := s) (by simp)]
    exact arrivals a (by simpa using ha)

theorem kept_openDemand (i : StringIdx) (reason : Reason) {n : Nat} (steps : s.pathsOk = true → 1 ≤ n ∧ n ≤ 16) :
    Kept s (openDemand i reason n s) := by
  refine kept_changePath (fun ok => path_ok_demanded _ _ (steps ok) ((pathsOk_iff.1 ok).2.2 i)) fun stuck => .inl ?_
  unfold Path.demanded at stuck
  split at stuck
  case h_1 | h_2 | h_3 => cases stuck
  case h_4 => split at stuck <;> exact stuck
  case h_5 | h_6 | h_7 | h_8 => exact stuck

/-- A path change does not look at the demands that wait, nor at the box trip line. -/
theorem changePath_withDemands (i : StringIdx) (p : Path) (l : List Demand) :
    changePath i p (s.withDemands l) = (changePath i p s).withDemands l := by
  unfold changePath notePathHold
  simp only [apply_ite (State.withDemands l)]
  rfl

theorem changePath_withBoxTrip (i : StringIdx) (p : Path) (b : Bool) :
    changePath i p (s.withBoxTrip b) = (changePath i p s).withBoxTrip b := by
  unfold changePath notePathHold
  simp only [apply_ite (State.withBoxTrip b)]
  rfl

theorem takeDemand_withDemands (l : List Demand) (d : Demand) :
    takeDemand (s.withDemands l) d = (takeDemand s d).withDemands l :=
  changePath_withDemands _ _ _

/-- The first of the demands that wait is taken, and then the others. -/
theorem takeDemands_cons {d : Demand} {rest : List Demand} (h : s.demands = d :: rest) :
    takeDemands s = takeDemands ((takeDemand s d).withDemands rest) := by
  simp only [takeDemands, h, List.foldl_cons, takeDemand_withDemands, State.withDemands_demands, State.withDemands_withDemands]

theorem kept_takeDemands (s : State) : Kept s (takeDemands s) := by
  generalize waiting : s.demands = l
  induction l generalizing s with
  | nil =>
    rw [takeDemands_of_nil waiting]
    exact .refl s
  | cons d rest ih =>
    rw [takeDemands_cons waiting]
    have steps (ok : s.pathsOk = true) : ∀ e ∈ d :: rest, 1 ≤ e.steps ∧ e.steps ≤ 16 := waiting ▸ (pathsOk_iff.1 ok).2.1
    have taken : Kept s (takeDemand s d) := kept_openDemand _ _ fun ok => steps ok d List.mem_cons_self
    have left : Kept (takeDemand s d) ((takeDemand s d).withDemands rest) := kept_withDemands fun ok e he =>
      (pathsOk_iff.1 ok).2.1 e (by simpa [waiting] using .inr he)
    exact (taken.trans left).trans (ih _ rfl)

theorem kept_endStep (demandsWait : Bool) : Kept s (endStep demandsWait s) := by
  unfold endStep
  split
  · exact .refl s
  · exact kept_takeDemands s

theorem kept_closePermission (i : StringIdx) : Kept s (closePermission i s) := by
  unfold closePermission
  split
  case isTrue taken =>
    exact kept_changePath (fun ok => path_ok_enterMaking _ taken.1 ((pathsOk_iff.1 ok).2.2 i)) fun stuck => by cases stuck
  case isFalse => exact .refl s

theorem kept_zeroBandSample (i : StringIdx) : Kept s (zeroBandSample i s) := by
  unfold zeroBandSample
  dsimp only
  split
  case isTrue taken =>
    exact kept_changePath (fun ok => path_ok_parting _ taken.1 ((pathsOk_iff.1 ok).2.2 i)) fun stuck => by cases stuck
  case isFalse => exact .refl s

/-! ### The box trip line (R136, R137) -/

/-- Asserting the line is always in order. -/
theorem kept_assertTrip : Kept s (s.withBoxTrip true) :=
  ⟨⟨rfl, rfl, rfl, id, fun _ => tripOk_iff.2 fun _ => rfl, id, id, id, id, id, id, id⟩, id⟩

theorem kept_setLatch : Kept s (setLatch s) := by
  unfold setLatch
  split
  · exact .refl s
  · exact ⟨⟨rfl, rfl, rfl, id, fun _ => tripOk_iff.2 fun _ => rfl, id, id, id, id, id, id, id⟩, id⟩

theorem kept_clearLatch : Kept s (clearLatch s) := by
  refine ⟨⟨rfl, rfl, rfl, id, fun ok => tripOk_iff.2 fun cause => ?_, id, id, id, id, id, id, id⟩, id⟩
  rcases cause with stuck | latch
  · exact (tripOk_iff (s := s)).1 ok (.inl stuck)
  · cases latch

/-- The line drops where nothing asks for it. -/
theorem kept_tripClear : Kept s (tripClear s) := by
  unfold tripClear
  split
  case isFalse => exact .refl s
  case isTrue clear =>
    refine ⟨⟨rfl, rfl, rfl, id, fun _ => tripOk_iff.2 fun cause => ?_, id, id, id, id, id, id, id⟩, id⟩
    rcases cause with stuck | latch
    · exact absurd ((anyStuck_iff (s := s)).2 stuck) (by simp [clear.1])
    · exact absurd latch (by simp [clear.2.2])

/-- The confirm deadline: a string comes into STUCK and the line is asserted at once. -/
theorem kept_stuck {i : StringIdx} (state : (s.path i).state = .confirming) :
    Kept s ((changePath i { s.path i with state := .stuck, deadline := none } s).withBoxTrip true) := by
  rw [← changePath_withBoxTrip]
  exact kept_assertTrip.trans
    (kept_changePath (fun ok => path_ok_enterStuck state ((pathsOk_iff.1 ok).2.2 i)) fun _ => .inr rfl)

end

end Sys2Proof.Machine
end

section
/-! Proofs: the operations of the Hold manager, the Fault log, the bus and the Arc contest unit are kept (`Kept`, chapters 2, 5, 6, 8 and
9). -/

namespace Sys2Proof.Machine

section
variable {s : State} {c : Settings}

/-! ### The store and the mask changes (R150, R176) -/

theorem kept_beginWrite (kind : WriteKind) (page : Nat) (content : List Byte) (answerOwed : Bool) :
    Kept s (beginWrite kind page content answerOwed s) :=
  kept_withNvs fun wf => wf_beginWrite kind page content answerOwed wf

theorem kept_maskChange : Kept s (maskChange s) := by
  unfold maskChange
  split
  · exact kept_beginWrite ..
  · exact kept_withNvs id

theorem kept_withMaskChange {act : State → State} (h : Kept s (act s)) : Kept s (withMaskChange act s) := by
  unfold withMaskChange
  dsimp only
  split
  · exact h
  · exact h.trans kept_maskChange

theorem kept_finishWrite (w : Write) : Kept s (finishWrite w s) := by
  unfold finishWrite
  dsimp only
  have programmed : Kept s (s.withNvs { s.nvs with
      store := programmed w s.nvs.store, sealSet := sealAfter w s.nvs.sealSet, write := none, pendingMask := false }) :=
    kept_withNvs fun wf => wf_programmed w wf
  split
  · exact programmed.trans (kept_beginWrite ..)
  · exact programmed

/-! ### Holds (chapter 8) -/

theorem retryBudget_of_settings (settings : s.settings = some c) : s.retryBudget = c.retryBudget := by
  simp [State.retryBudget, settings]

/-- A change of the holds of the present strings, each in order. -/
theorem kept_forPresent {f : StringIdx → Hold → Hold}
    (h : ∀ (i : StringIdx) (closed : Bool), HoldLegal s.retryBudget true closed (s.hold i) →
      HoldLegal s.retryBudget true closed (f i (s.hold i))) : Kept s (forPresent f s) := by
  refine kept_withHld fun i closed legal => ?_
  simp only [Fin.getElem_fin, Vector.getElem_ofFn, Fin.eta]
  split
  case isTrue present =>
    rw [present] at legal ⊢
    exact h i closed legal
  case isFalse => exact legal

/-- A change of one present string's holds. -/
theorem kept_setHold_of_present {i : StringIdx} {g : Hold} (present : s.present i = true)
    (h : ∀ closed : Bool, HoldLegal s.retryBudget true closed (s.hold i) → HoldLegal s.retryBudget true closed g) :
    Kept s (s.setHold i g) :=
  kept_setHold (by rwa [present])

theorem kept_holdConsequence (settings : s.settings = some c) (i : StringIdx) (k : Consequence) :
    Kept s (holdConsequence c i k s) := by
  unfold holdConsequence
  split
  case isFalse => exact .refl s
  case isTrue present =>
    refine kept_withMaskChange (kept_setHold_of_present present fun closed legal => ?_)
    rw [retryBudget_of_settings settings] at legal ⊢
    exact legal.consequence _ k

theorem present_of_settings (settings : s.settings = some c) (i : StringIdx) : s.present i = c.strings[i].present := by
  simp [State.present, settings]

theorem kept_considerClose (i : StringIdx) : Kept s (considerClose i s) := by
  unfold considerClose
  split
  case h_1 => exact .refl s
  case h_2 c settings =>
    split
    case isFalse => exact .refl s
    case isTrue considered =>
      split
      · exact kept_closePermission i
      · exact kept_setHold_of_present ((present_of_settings settings i).trans considered.1) fun closed legal =>
          legal.beginWait considered.2.2 _

/-- The same change of the holds of several present strings. -/
theorem kept_foldl_setHold {f : Hold → Hold} {l : List StringIdx} (present : ∀ i ∈ l, s.present i = true)
    (h : ∀ (budget : Nat) (closed : Bool) (g : Hold), HoldLegal budget true closed g → HoldLegal budget true closed (f g)) :
    Kept s (l.foldl (fun u i => u.setHold i (f (u.hold i))) s) := by
  refine .foldl fun t settings i hi => kept_setHold_of_present ?_ fun closed => h _ closed _
  rw [← present i hi, State.present, State.present, settings]

theorem kept_releaseStrings {l : List StringIdx} (present : ∀ i ∈ l, s.present i = true) : Kept s (releaseStrings l s) :=
  (kept_withMaskChange (kept_foldl_setHold present fun _ _ _ => HoldLegal.released)).trans
    (.foldl fun _ _ i _ => kept_considerClose i)

theorem kept_isolateStrings (settings : s.settings = some c) {l : List StringIdx} (present : ∀ i ∈ l, s.present i = true) :
    Kept s (isolateStrings c l s) := by
  have held : Kept s (withMaskChange (fun t => l.foldl (fun u i => u.setHold i (u.hold i).addManual) t) s) :=
    kept_withMaskChange (kept_foldl_setHold present fun _ _ _ => HoldLegal.addManual)
  refine held.trans (.foldl fun t same i _ => kept_openDemand i .manual fun ok => (pathsOk_iff.1 ok).1 c ?_)
  rw [same, held.settings, settings]

theorem kept_goodRun : Kept s (goodRun c s) := by
  refine ⟨⟨by simp, by simp, by simp, by simp [State.pathsOk], by simp [State.tripOk, State.anyStuck], fun ok => ?_, by simp, by simp,
    by simp, by simp [State.peersOk], by simp [State.rivalsOk], by simp⟩, fun ok => ?_⟩
  · refine holdsOk_iff.2 fun i => ?_
    have legal := holdsOk_iff.1 ok i
    have budget : (goodRun c s).retryBudget = s.retryBudget := by simp [State.retryBudget]
    simp only [budget, hold_goodRun, goodRun_frame]
    split
    case isTrue closed =>
      rw [closed.2] at legal ⊢
      exact legal.examined c _ _
    case isFalse => exact legal
  · obtain ⟨arrivals, strikes⟩ := strikesOk_iff.1 ok
    refine strikesOk_iff.2 ⟨fun a ha => ?_, by simpa using strikes⟩
    rw [arrival_ok_congr (s := s) (by simp)]
    exact arrivals a (by simpa using ha)

/-! ### Declarations (5.4, chapter 9) -/

theorem kept_recordFault (d : Declaration) : Kept s (recordFault d s) := by
  refine kept_withFlg fun ok => ?_
  split
  · exact flg_ok_append d _ _ ok
  · exact flg_ok_failIsolation _ _ _ _ (flg_ok_append d _ _ ok)

theorem kept_sendDemand {d : Declaration} (steps : ∀ n, d.demand = some n → s.pathsOk = true → 1 ≤ n ∧ n ≤ 16) :
    Kept s (sendDemand d s) := by
  unfold sendDemand
  split
  case h_1 => exact .refl s
  case h_2 n demand =>
    refine kept_withDemands fun ok e he => ?_
    rcases List.mem_append.1 he with he | he
    · exact (pathsOk_iff.1 ok).2.1 e he
    · rw [List.mem_singleton.1 he]
      exact steps n demand ok

/-- A declaration whose demand, if it has one, is of 1 step or of the ramp steps setting. -/
theorem kept_declareFault (settings : s.settings = some c) {d : Declaration}
    (steps : ∀ n, d.demand = some n → n = 1 ∨ n = c.rampSteps) : Kept s (declareFault c d s) := by
  have recorded : Kept s (recordFault d s) := kept_recordFault d
  have held := recorded.andThen settings fun same => kept_holdConsequence same d.string d.consequence
  refine held.trans (kept_sendDemand fun n demand ok => ?_)
  rcases steps n demand with rfl | rfl
  · decide
  · exact (pathsOk_iff.1 ok).1 c (held.settings.trans settings)

theorem kept_performanceFault (settings : s.settings = some c) (i : StringIdx) (d ref : Int) (n : Nat) :
    Kept s (declareFault c (performanceFault c i d ref n) s) := by
  refine kept_declareFault settings fun k demand => .inr ?_
  simp only [performanceFault] at demand
  split at demand
  · cases demand
  · exact (Option.some.inj demand).symm

theorem kept_fastFault (settings : s.settings = some c) (i : StringIdx) (cause : Cause) (peak : Int) :
    Kept s (declareFault c (fastFault c i cause peak) s) :=
  kept_declareFault settings fun _ demand => .inr (Option.some.inj demand).symm

theorem kept_arcFault (settings : s.settings = some c) (i : StringIdx) (score : Nat) :
    Kept s (declareFault c (arcFault i score) s) :=
  kept_declareFault settings fun _ demand => .inl (Option.some.inj demand).symm

/-! ### The bus (chapter 2) -/

theorem kept_offerToBus {offer : Settings → Nat → Abu → Abu} (h : ∀ c now (a : Abu), a.Ok → (offer c now a).Ok) :
    Kept s (offerToBus offer s) := by
  unfold offerToBus
  split
  · exact .refl s
  · split
    · exact .refl s
    · exact kept_withAbu (h _ _ _)

theorem kept_offerDigest (body : List Byte) : Kept s (offerDigest body s) :=
  kept_offerToBus fun _ now _ ok => ok.offerSingle now _ body

theorem kept_offerClaim (body : List Byte) : Kept s (offerClaim body s) :=
  kept_offerToBus fun _ now _ ok => ok.offerSingle now _ body

theorem kept_offerReply (dest : Nat) (body : List Byte) : Kept s (offerReply dest body s) :=
  kept_offerToBus fun _ now _ ok => ok.offerReply now dest body

/-! ### The arc contest (chapter 6) -/

/-- A write of the contest record. -/
theorem kept_withContest (x : Contest) : Kept s (s.withAcu { s.acu with contest := x }) := kept_withAcu rfl id

theorem kept_openContest (round : Nat) (p : Peak) : Kept s (openContest c round p s) := by
  unfold openContest
  split
  · exact (kept_withContest .idle).trans kept_setLatch
  · exact (kept_withContest _).trans (kept_offerClaim _)

/-- The alarm leaves the latch and the rivals. -/
@[simp] theorem alarmTick_frame (threshold : Nat) (p : Peak) (a : Acu) :
    (a.alarmTick threshold p).latch = a.latch ∧ (a.alarmTick threshold p).rivals = a.rivals ∧
      (a.alarmTick threshold p).contest = a.contest := by
  unfold Acu.alarmTick
  split <;> exact ⟨rfl, rfl, rfl⟩

theorem kept_arcTick : Kept s (arcTick c s) := by
  have tick : Kept s (s.withAcu (s.acu.alarmTick c.arcThreshold s.sfe.peak)) := kept_withAcu (by simp) (by simp)
  unfold arcTick
  dsimp only
  split
  case h_1 =>
    split
    · split
      · exact tick
      · exact tick.trans (kept_openContest _ _)
    · exact tick
  case h_2 => exact tick.trans (kept_withContest _)
  case h_3 =>
    split
    · exact (tick.trans (kept_withContest _)).trans (kept_openContest _ _)
    · exact tick.trans (kept_withContest _)
  case h_4 => exact tick

theorem kept_winContest (settings : s.settings = some c) (round : Nat) (own : Peak) (chosen : StringIdx) :
    Kept s (winContest c round own chosen s) := by
  have settled := kept_withContest (s := s) (.settle (s.nowMs + ms 500))
  unfold winContest
  dsimp only
  split
  case h_1 => exact settled.trans kept_setLatch
  case h_2 => exact (settled.andThen settings fun same => kept_arcFault same _ _).trans (kept_offerClaim _)

theorem kept_decideContest (settings : s.settings = some c) : Kept s (decideContest c s) := by
  unfold decideContest
  split
  case h_1 =>
    split
    · split
      · exact kept_withContest _
      · exact kept_winContest settings _ _ _
    · exact .refl s
  case h_2 | h_3 | h_4 => exact .refl s

theorem kept_resolve : Kept s (resolve c s) := by
  unfold resolve
  split
  case h_1 =>
    split
    · split
      · exact kept_openContest _ _
      · exact kept_withContest _
    · exact .refl s
  case h_2 | h_3 | h_4 | h_5 => exact .refl s

theorem kept_takeClaim (t : Telegram) : Kept s (takeClaim c t s) := by
  unfold takeClaim
  split
  · exact .refl s
  · split
    · exact kept_withAcu rfl rivalsLegal_enterRival
    · exact .refl s

end

end Sys2Proof.Machine
end

section
/-! Proofs: what waits between the blocks, the receiver and the windows are kept (`Kept`, chapters 1 to 5). -/

namespace Sys2Proof.Machine

section
variable {s : State} {c : Settings}

/-! ### The fast checks and the verdicts (chapter 5) -/

@[simp] theorem sampled_strikes (current : Int) (a : AdjRecord) : (a.sampled c current).strikes = a.strikes := by
  unfold AdjRecord.sampled
  split_ifs <;> rfl

theorem kept_fastCheck (settings : s.settings = some c) (i : StringIdx) : Kept s (fastCheck c i s) := by
  unfold fastCheck
  dsimp only
  split
  case isFalse => exact kept_setAdj id
  case isTrue =>
    split
    case h_1 => exact kept_setAdj (by simp)
    case h_2 d declared =>
      have ended : Kept s (s.setAdj i ((s.adjOf i).sampled c s.sfe.currents[i]).untested) :=
        kept_setAdj (by simp [AdjRecord.untested])
      refine ended.andThen settings fun same => ?_
      unfold AdjRecord.fastDeclaration at declared
      split_ifs at declared
      all_goals
        cases declared
        exact kept_fastFault same i _ _

theorem blocksKept_takeVerdict (settings : s.settings = some c) (e : VerdictEntry) : BlocksKept s (takeVerdict c e s) := by
  unfold takeVerdict
  dsimp only
  split
  case h_1 =>
    split
    · split
      · exact (blocksKept_setAdj _ _).trans (kept_performanceFault (s := s.setAdj _ _) settings _ _ _ _).toBlocksKept
      · exact blocksKept_setAdj _ _
    · exact blocksKept_setAdj _ _
  case h_2 => exact blocksKept_setAdj _ _
  case h_3 | h_4 => exact .refl s

/-- A present string's count grows below the persistence alone (R84). -/
theorem kept_takeVerdict (settings : s.settings = some c) {e : VerdictEntry} (present : s.present e.string = true) :
    Kept s (takeVerdict c e s) := by
  have reset : Kept s (s.setAdj e.string { s.adjOf e.string with strikes := 0 }) := kept_setAdj StrikesLegal.zero
  unfold takeVerdict
  dsimp only
  split
  case h_1 =>
    split
    · split
      · exact reset.andThen settings fun same => kept_performanceFault same _ _ _ _
      case isFalse below =>
        refine kept_setAdj fun legal => ?_
        rw [present_of_settings settings] at present
        simp only [StrikesLegal, settings, present, if_true] at legal ⊢
        exact ⟨legal.1, by omega⟩
    · exact reset
  case h_2 => exact reset
  case h_3 | h_4 => exact .refl s

theorem present_congr {t : State} (settings : t.settings = s.settings) (i : StringIdx) : t.present i = s.present i := by
  simp [State.present, settings]

theorem kept_takeVerdicts (settings : s.settings = some c) {l : List VerdictEntry}
    (present : ∀ e ∈ l, s.present e.string = true) : Kept s (takeVerdicts c l s) :=
  .foldl fun _ same e he => kept_takeVerdict (same.trans settings) ((present_congr same _).trans (present e he))

/-! ### Arrivals (assumption log 6) -/

theorem kept_takeTickPart (settings : s.settings = some c) (part : TickPart) : Kept s (takeTickPart c s part) := by
  cases part with
  | fastCheck i => exact kept_fastCheck settings i
  | arcContest => exact kept_arcTick
  | zeroBand i => exact kept_zeroBandSample i

theorem kept_takeArrival (settings : s.settings = some c) {a : Arrival} (ok : a.ok s = true) : Kept s (takeArrival c s a) := by
  cases a with
  | tick part => exact kept_takeTickPart settings part
  | verdicts set => exact kept_takeVerdicts settings (by simpa [Arrival.ok] using ok)
  | goodRun => exact kept_goodRun

theorem blocksKept_takeArrival (settings : s.settings = some c) (a : Arrival) : BlocksKept s (takeArrival c s a) := by
  cases a with
  | tick part => exact (kept_takeTickPart settings part).toBlocksKept
  | verdicts set => exact .foldl fun _ same e _ => blocksKept_takeVerdict (same.trans settings) e
  | goodRun => exact kept_goodRun.toBlocksKept

/-- Arrivals that are in order, one after another. -/
theorem kept_foldl_takeArrival (settings : s.settings = some c) {l : List Arrival} (ok : ∀ a ∈ l, a.ok s = true) :
    Kept s (l.foldl (takeArrival c) s) :=
  .foldl fun _ same a ha => kept_takeArrival (same.trans settings) ((arrival_ok_congr (present_congr same) a).trans (ok a ha))

theorem kept_takeArrivals (s : State) : Kept s (takeArrivals s) := by
  unfold takeArrivals
  split
  case h_1 => exact kept_withArrivals (by simp)
  case h_2 c settings =>
    refine ⟨(blocksKept_withArrivals []).trans (.foldl fun t same a _ => blocksKept_takeArrival (same.trans settings) a),
      fun ok => ?_⟩
    have arrivals := (strikesOk_iff.1 ok).1
    exact (kept_foldl_takeArrival (s := s.withArrivals []) settings arrivals).strikes
      ((kept_withArrivals (by simp)).strikes ok)

theorem kept_settled (s : State) : Kept s s.settled := (kept_takeArrivals s).trans (kept_takeDemands _)

/-! ### The receiver (chapter 2) -/

theorem kept_takeDigest (settings : s.settings = some c) {t : Telegram} (foreign : t.source ≠ c.station) :
    Kept s (takeDigest c t s) := by
  unfold takeDigest
  split
  · exact .refl s
  · refine kept_withPtb fun legal => ?_
    rw [settings] at legal ⊢
    exact peersLegal_enroll legal foreign

theorem kept_enterSilent : Kept s (enterSilent s) := by
  have bus : Kept s (s.withAbu { s.abu with silent := true, queue := [], tx := .empty, deferral := none }) :=
    kept_withAbu fun ok => ok.emptied true
  exact bus.trans (kept_withPtb fun legal => legal.sublist (by simp))

theorem kept_deliverRequest (t : Telegram) : Kept s (deliverRequest t s) := by
  have superseded : Kept s (s.withAbu (s.abu.supersede t.source)) := kept_withAbu fun ok => ok.supersede _
  unfold deliverRequest
  dsimp only
  split
  · exact superseded.trans (kept_withRequests _)
  · exact superseded.trans (kept_offerReply _ _)

theorem kept_deliver (settings : s.settings = some c) (t : Telegram) : Kept s (deliver c t s) := by
  unfold deliver
  split
  case isTrue =>
    split
    · exact .refl s
    · exact kept_enterSilent
  case isFalse foreign =>
    split
    · unfold deliverInSilent
      split_ifs
      · exact kept_takeClaim t
      · exact .refl s
      · exact .refl s
    · have heard : Kept s (s.withPtb (s.ptb.heard t.source s.nowMs)) := kept_withPtb (peersLegal_heard _ _)
      unfold deliverInRun
      dsimp only
      split_ifs
      · exact heard.andThen settings fun same => kept_takeDigest same foreign
      · exact heard
      · exact heard.trans (kept_takeClaim t)
      · exact heard
      · exact heard.trans (kept_deliverRequest t)
      · exact heard
      · exact heard

theorem kept_completeTelegram (settings : s.settings = some c) (bytes : List Byte) : Kept s (completeTelegram c bytes s) := by
  unfold completeTelegram
  dsimp only
  split
  · have valid : Kept s (s.withAbu { s.abu with rx := .gapWait, taken := [], tally := s.abu.tally.bumpValid }) :=
      kept_withAbu fun ok => ok.receive (tally_ok_bump ok.tally).valid _ _ _
    exact valid.andThen settings fun same => kept_deliver same _
  · exact kept_withAbu fun ok => ok.receive (tally_ok_bump ok.tally).crc _ _ _

theorem kept_classifyByte (settings : s.settings = some c) (b : Byte) (stopError : Bool) :
    Kept s (classifyByte c b stopError s) := by
  unfold classifyByte
  split
  case h_1 => exact .refl s
  case h_2 =>
    refine kept_withAbu fun ok => ?_
    split
    · exact ok.discardByte
    · exact (ok.receive (taken := []) ok.tally _ _).headerByte b
  case h_3 =>
    refine kept_withAbu fun ok => ?_
    split
    · exact ok.discardByte
    · exact ok.headerByte b
  case h_4 =>
    split
    · exact kept_withAbu fun ok => ok.discardByte
    · dsimp only
      split
      · exact kept_completeTelegram settings _
      · exact kept_withAbu fun ok => ok.receive ok.tally _ _ _

theorem kept_noteByte (now : Nat) : Kept s (s.withAbu (s.abu.noteByte now)) := kept_withAbu fun ok => ok.noteByte now

theorem kept_busByte (settings : s.settings = some c) (b : Byte) (stopError : Bool) : Kept s (busByte c b stopError s) := by
  unfold busByte
  split
  case isTrue sending => exact kept_withAbu fun ok => ok.readBackByte _ b stopError sending
  case isFalse => exact (kept_noteByte _).andThen settings fun same => kept_classifyByte same b stopError

/-! ### The tick and the windows (chapters 1 and 4) -/

theorem kept_readInputs (raw : RawInputs) : Kept s (readInputs raw s) :=
  (kept_withSfe _).trans (kept_withHld fun _ _ => id)

theorem kept_consumeTick (settings : s.settings = some c) (order : TickOrder) : Kept s (consumeTick c order s) := by
  have taken : Kept s ((tickSchedule order).foldl (takeTickPart c) s) :=
    .foldl fun _ same part _ => kept_takeTickPart (same.trans settings) part
  refine (taken.trans (kept_withWac fun ok => wac_ok_countTick c ok)).trans (kept_withArrivals fun ok a ha => ?_)
  rcases List.mem_append.1 ha with old | late
  · exact (strikesOk_iff.1 ok).1 a old
  · obtain ⟨part, -, rfl⟩ := List.mem_map.1 late
    rfl

/-- The verdict set of a close has entries for present strings alone (R76). -/
theorem closeArrivals_ok (settings : s.settings = some c) {order : CloseOrder} {w : WindowInput} (config : w.config = c) :
    ∀ a ∈ closeArrivals order w, a.ok s = true := by
  have verdicts : (Arrival.verdicts w.verdicts).ok s = true := by
    simp only [Arrival.ok, List.all_eq_true, WindowInput.verdicts, List.mem_map, List.mem_filter]
    rintro e ⟨i, ⟨-, present⟩, rfl⟩
    rw [present_of_settings settings, ← config]
    exact present
  intro a ha
  have either : a = .goodRun ∨ a = .verdicts w.verdicts := by
    unfold closeArrivals at ha
    split at ha <;> simpa [or_comm] using ha
  rcases either with rfl | rfl
  · rfl
  · exact verdicts

theorem kept_judgeWindow (settings : s.settings = some c) {order : CloseOrder} {w : WindowInput} (config : w.config = c) :
    Kept s (judgeWindow c order w s) := by
  unfold judgeWindow
  split
  · refine kept_withArrivals fun ok a ha => ?_
    rcases List.mem_append.1 ha with old | new
    · exact (strikesOk_iff.1 ok).1 a old
    · exact closeArrivals_ok settings config a new
  · exact kept_foldl_takeArrival settings (closeArrivals_ok settings config)

theorem kept_evaluateWindow (w : WindowInput) (windowNumber : BitVec 16) : Kept s (evaluateWindow w windowNumber s) :=
  (kept_withRfu _).trans (kept_offerDigest _)

theorem kept_closeWindow (settings : s.settings = some c) (order : CloseOrder) : Kept s (closeWindow c order s) := by
  have closed : Kept s (s.withWac s.wac.closeWindow.openWindow) := kept_withWac wac_ok_closeWindow
  have aged : Kept s ((s.withWac s.wac.closeWindow.openWindow).withPtb (s.ptb.age c s.nowMs)) :=
    closed.trans (kept_withPtb fun legal => peersLegal_age _ _ legal)
  exact (aged.trans (kept_evaluateWindow _ _)).andThen settings fun same => kept_judgeWindow same rfl

end

end Sys2Proof.Machine
end

section
/-! Proofs: what each command keeps (`Kept`), command by command, from the moment at which it finds the part. -/

namespace Sys2Proof.Machine

/-- The command completes, and from the state it finds to the one it leaves the conditions are kept. -/
def Keeps (o : Host.Outcome State Fault Refusal) (found : State) : Prop := ∃ t, o = .next t ∧ Kept found t

section
variable {s t u : State} {c : Settings}

theorem keeps_next (h : Kept t u) : Keeps (.next u) t := ⟨u, rfl, h⟩

/-- The command lets time pass. -/
theorem keeps_idle : Keeps (.next t) t := keeps_next (.refl t)

/-! ### Ticks and windows -/

theorem keeps_protectionTick (dt : Nat) (raw : RawInputs) (order : TickOrder) :
    Keeps (execProtectionTick dt raw order s) (s.arrive dt) := by
  unfold execProtectionTick
  dsimp only
  split
  case isFalse => exact keeps_idle
  case isTrue =>
    have read := (kept_takeArrivals (s.arrive dt)).trans (kept_readInputs raw)
    split
    case h_1 => exact keeps_next read
    case h_2 settings => exact keeps_next ((read.trans (kept_consumeTick settings order)).trans (kept_endStep _))

theorem keeps_windowSample (dt : Nat) : Keeps (execWindowSample dt s) (s.arrive dt) := by
  unfold execWindowSample
  dsimp only
  split
  case isTrue due => exact keeps_next (kept_withWac fun ok => wac_ok_addSample ok due.2)
  case isFalse => exact keeps_idle

theorem keeps_windowClose (dt : Nat) (order : CloseOrder) : Keeps (execWindowClose dt order s) (s.arrive dt) := by
  unfold execWindowClose
  dsimp only
  split
  case h_1 => exact keeps_idle
  case h_2 settings =>
    split
    · exact keeps_next ((kept_closeWindow settings order).trans (kept_endStep _))
    · exact keeps_idle

/-! ### The sequencers' deadlines (chapter 7) -/

theorem phaseDue_state {state : PathState} {i : StringIdx} (due : phaseDue state i t = true) : (t.path i).state = state := by
  simp only [phaseDue, Bool.and_eq_true, decide_eq_true_eq] at due
  exact due.1

theorem keeps_openingStep (dt : Nat) (i : StringIdx) : Keeps (execOpeningStep dt i s) (s.arrive dt) := by
  unfold execOpeningStep
  dsimp only
  split
  case isFalse => exact keeps_idle
  case isTrue due =>
    have state := phaseDue_state due
    refine keeps_next (kept_changePath (fun ok => path_ok_openingStep _ state ((pathsOk_iff.1 ok).2.2 i)) fun stuck => ?_)
    unfold Path.openingStep at stuck
    dsimp only at stuck
    split at stuck
    · cases stuck
    · exact .inl stuck

theorem keeps_closingStep (dt : Nat) (i : StringIdx) : Keeps (execClosingStep dt i s) (s.arrive dt) := by
  unfold execClosingStep
  dsimp only
  split
  case isFalse => exact keeps_idle
  case isTrue due =>
    have state := phaseDue_state due
    refine keeps_next (kept_changePath (fun ok => path_ok_closingStep state ((pathsOk_iff.1 ok).2.2 i)) fun stuck => ?_)
    unfold Path.closingStep at stuck
    dsimp only at stuck
    split at stuck
    · cases stuck
    · exact .inl stuck

theorem keeps_makingDeadline (dt : Nat) (i : StringIdx) : Keeps (execMakingDeadline dt i s) (s.arrive dt) := by
  unfold execMakingDeadline
  dsimp only
  split
  case h_1 => exact keeps_idle
  case h_2 c settings =>
    split
    case isFalse => exact keeps_idle
    case isTrue due =>
      refine keeps_next (kept_changePath (fun ok => ?_) fun stuck => by cases stuck)
      obtain ⟨ramp, -, paths⟩ := pathsOk_iff.1 ok
      exact path_ok_enterClosing _ (ramp c settings) (phaseDue_state due) (paths i)

theorem kept_enterStuck (settings : s.settings = some c) {i : StringIdx} (state : (s.path i).state = .confirming) :
    Kept s (enterStuck c i s) :=
  (kept_stuck state).andThen settings fun same => kept_declareFault same fun _ demand => by cases demand

theorem keeps_confirmDeadline (dt : Nat) (i : StringIdx) : Keeps (execConfirmDeadline dt i s) (s.arrive dt) := by
  unfold execConfirmDeadline
  dsimp only
  split
  case h_1 => exact keeps_idle
  case h_2 settings =>
    split
    case isFalse => exact keeps_idle
    case isTrue due => exact keeps_next (kept_enterStuck settings (phaseDue_state due))

theorem keeps_partingDeadline (dt : Nat) (i : StringIdx) : Keeps (execPartingDeadline dt i s) (s.arrive dt) := by
  unfold execPartingDeadline
  dsimp only
  split
  case isFalse => exact keeps_idle
  case isTrue due =>
    have isolated : Kept (s.arrive dt) (changePath i { (s.arrive dt).path i with state := .isolated, deadline := none } (s.arrive dt)) :=
      kept_changePath (fun ok => path_ok_enterIsolated (phaseDue_state due) ((pathsOk_iff.1 ok).2.2 i)) fun stuck => by cases stuck
    exact keeps_next (isolated.trans (kept_considerClose i))

/-! ### Timed holds and the shutdown line (chapter 8) -/

theorem keeps_retryEnd (dt : Nat) (i : StringIdx) : Keeps (execRetryEnd dt i s) (s.arrive dt) := by
  unfold execRetryEnd
  dsimp only
  split
  · exact keeps_next ((kept_setHold fun _ => HoldLegal.endRetry).trans (kept_considerClose i))
  · exact keeps_idle

theorem keeps_startupEnd (dt : Nat) (i : StringIdx) : Keeps (execStartupEnd dt i s) (s.arrive dt) := by
  unfold execStartupEnd
  dsimp only
  split
  · exact keeps_next ((kept_setHold fun _ => HoldLegal.endStartup).trans (kept_considerClose i))
  · exact keeps_idle

theorem keeps_voltageRecheck (dt : Nat) (i : StringIdx) : Keeps (execVoltageRecheck dt i s) (s.arrive dt) := by
  unfold execVoltageRecheck
  dsimp only
  split
  case h_1 => exact keeps_idle
  case h_2 =>
    split
    case isFalse => exact keeps_idle
    case isTrue due =>
      unfold recheckVoltage
      split
      · exact keeps_next ((kept_setHold fun _ => HoldLegal.endWait).trans (kept_closePermission i))
      · exact keeps_next (kept_setHold fun _ legal => legal.renewWait due.2.1 _)

theorem kept_shutdownDemands : Kept s (shutdownDemands s) := by
  refine .foldl fun t _ i _ => ?_
  split
  · exact kept_openDemand i .shutdown fun _ => by decide
  · exact .refl t

theorem keeps_shutdownAssertion (dt : Nat) : Keeps (execShutdownAssertion dt s) (s.arrive dt) := by
  unfold execShutdownAssertion
  dsimp only
  split
  case isFalse => exact keeps_idle
  case isTrue =>
    have level : Kept (s.arrive dt) ((s.arrive dt).withHld { (s.arrive dt).hld with shutdown := true }) := kept_withHld fun _ _ => id
    exact keeps_next ((level.trans (kept_forPresent fun _ _ => HoldLegal.addShutdown)).trans kept_shutdownDemands)

theorem keeps_shutdownDeassertion (dt : Nat) : Keeps (execShutdownDeassertion dt s) (s.arrive dt) := by
  unfold execShutdownDeassertion
  dsimp only
  split
  case isFalse => exact keeps_idle
  case isTrue =>
    have level : Kept (s.arrive dt) ((s.arrive dt).withHld { (s.arrive dt).hld with shutdown := false }) := kept_withHld fun _ _ => id
    exact keeps_next (level.trans (kept_forPresent fun _ _ legal => legal.write rfl legal.retries rfl))

/-! ### The deadlines of the arc contest (chapter 6) -/

theorem keeps_contestWindowEnd (at' : ContestEnd) : Keeps (execContestWindowEnd at' s) (s.arrive at'.dt) := by
  unfold execContestWindowEnd
  dsimp only
  split
  case h_1 => exact keeps_idle
  case h_2 settings => exact keeps_next ((kept_decideContest settings).trans (kept_endStep _))

theorem keeps_resolutionDeadline (dt : Nat) : Keeps (execResolutionDeadline dt s) (s.arrive dt) := by
  unfold execResolutionDeadline
  dsimp only
  split
  · exact keeps_idle
  · exact keeps_next kept_resolve

theorem keeps_quietPeriodEnd (dt : Nat) : Keeps (execQuietPeriodEnd dt s) (s.arrive dt) := keeps_next (kept_withContest _)

theorem keeps_settleEnd (dt : Nat) : Keeps (execSettleEnd dt s) (s.arrive dt) := keeps_next (kept_withContest _)

theorem keeps_rivalExpiry (dt station : Nat) : Keeps (execRivalExpiry dt station s) (s.arrive dt) := by
  unfold execRivalExpiry
  dsimp only
  split
  · exact keeps_idle
  · exact keeps_next (kept_withAcu rfl fun legal => legal.sublist List.filter_sublist)

/-! ### The array bus (chapter 2) -/

theorem keeps_byteArrival (dt : Nat) (b : Byte) (stopError : Bool) : Keeps (execByteArrival dt b stopError s) (s.arrive dt) := by
  unfold execByteArrival
  dsimp only
  split
  case h_1 => exact keeps_idle
  case h_2 settings => exact keeps_next (kept_busByte settings b stopError)

theorem keeps_telegramComplete (dt : Nat) (b : Byte) : Keeps (execTelegramComplete dt b s) (s.arrive dt) := by
  unfold execTelegramComplete
  dsimp only
  split
  case h_1 => exact keeps_idle
  case h_2 settings =>
    split
    · exact keeps_next ((kept_noteByte _).andThen settings fun same => kept_completeTelegram same _)
    · exact keeps_idle

theorem keeps_idleGapExpiry (dt : Nat) : Keeps (execIdleGapExpiry dt s) (s.arrive dt) := by
  unfold execIdleGapExpiry
  dsimp only
  split
  · exact keeps_idle
  · exact keeps_next (kept_withAbu fun ok => ok.gapExpired _)

theorem keeps_deferralExpiry (dt : Nat) : Keeps (execDeferralExpiry dt s) (s.arrive dt) := by
  unfold execDeferralExpiry
  dsimp only
  split
  · exact keeps_idle
  · exact keeps_next (kept_withAbu fun ok => ok.deferralExpired _)

theorem keeps_transmissionComplete (dt : Nat) : Keeps (execTransmissionComplete dt s) (s.arrive dt) := by
  unfold execTransmissionComplete
  dsimp only
  split
  case isTrue sending => exact keeps_next (kept_withAbu fun ok => ok.complete _ sending)
  case isFalse => exact keeps_idle

theorem keeps_collision (dt : Nat) : Keeps (execCollision dt s) (s.arrive dt) := by
  unfold execCollision
  dsimp only
  split
  case isTrue sending => exact keeps_next (kept_withAbu fun ok => ok.collide _ sending)
  case isFalse => exact keeps_idle

/-! ### Requests (chapter 10) -/

/-- A request is taken from the list, its own action is carried out where the checks pass, and its reply is offered. -/
theorem kept_serve (kind : RequestKind) {act : Settings → Request → State → Served}
    (h : ∀ (c : Settings) (r : Request) (u : State), u.settings = some c → Kept u (act c r u).state) : Kept s (serve kind act s) := by
  unfold serve
  split
  case h_1 c r rest settings _ =>
    split
    case isFalse => exact .refl s
    case isTrue =>
      have checked : Kept (s.withRequests rest) (checkedServe kind act c r (s.withRequests rest)).state := by
        unfold checkedServe
        split_ifs
        · exact .refl _
        · exact h c r _ settings
        · exact .refl _
      exact ((kept_withRequests rest).trans checked).trans (kept_offerReply _ _)
  case h_2 | h_3 => exact .refl s

theorem kept_serveIsolate (c : Settings) (r : Request) (u : State) (settings : u.settings = some c) :
    Kept u (serveIsolate c r u).state := by
  unfold serveIsolate
  dsimp only
  split
  · exact .refl u
  · exact kept_isolateStrings settings fun i hi => (List.mem_filter.1 hi).2

/-- A string that may be released is present. -/
theorem present_of_released {i : StringIdx} (released : releaseOutcome u i = 3) : u.present i = true := by
  unfold releaseOutcome at released
  split at released
  case isTrue => exact absurd released (by decide)
  case isFalse present => simpa using present

theorem kept_serveRelease (c : Settings) (r : Request) (u : State) (_ : u.settings = some c) :
    Kept u (serveRelease c r u).state := by
  unfold serveRelease
  dsimp only
  split
  case isTrue => exact .refl u
  case isFalse =>
    generalize named : (maskStrings (r.word 0)).filter (fun i => decide (releaseOutcome u i = 3)) = l
    have present : ∀ i ∈ l, u.present i = true := by
      rw [← named]
      intro i hi
      exact present_of_released (of_decide_eq_true (List.mem_filter.1 hi).2)
    have released : Kept u (if l = [] then u else releaseStrings l u) := by
      split
      · exact .refl u
      · exact kept_releaseStrings present
    unfold releaseAction
    dsimp only
    split
    · exact (released.trans kept_clearLatch).trans kept_tripClear
    · exact released

theorem kept_serveAcknowledge (c : Settings) (r : Request) (u : State) (_ : u.settings = some c) :
    Kept u (serveAcknowledge c r u).state := by
  unfold serveAcknowledge
  dsimp only
  split_ifs
  · exact .refl u
  · exact kept_withFlg fun ok => flg_ok_acknowledge _ _ ok
  · exact .refl u

theorem kept_serveReadStrings (c : Settings) (r : Request) (u : State) (_ : u.settings = some c) :
    Kept u (serveReadStrings c r u).state := by
  unfold serveReadStrings
  dsimp only
  split_ifs <;> exact .refl u

theorem kept_serveReadLog (c : Settings) (r : Request) (u : State) (_ : u.settings = some c) :
    Kept u (serveReadLog c r u).state := by
  unfold serveReadLog
  dsimp only
  split_ifs
  · exact .refl u
  · split <;> exact .refl u

theorem kept_serveReadTally (c : Settings) (r : Request) (u : State) (_ : u.settings = some c) :
    Kept u (serveReadTally c r u).state :=
  kept_withAbu fun ok => ok.receive (t := Tally.zero) rfl _ _ _

/-! ### The service link (chapter 11) -/

theorem kept_sendAnswer (bytes : List Byte) : Kept s (sendAnswer bytes s) := kept_withSvl _

theorem kept_keepReceiving (bytes : List Byte) : Kept s (keepReceiving bytes s) := kept_withSvl _

theorem kept_toSession (x : Session) : Kept s (toSession x s) := kept_withSvl _

theorem kept_endSession : Kept s (endSession s) := (kept_withSvl _).trans (kept_withNvs id)

theorem kept_settleSilence : Kept s (settleSilence s) := by
  unfold settleSilence
  split_ifs
  · exact kept_endSession
  · exact kept_withSvl _
  · exact .refl s

theorem kept_readPage (page : Byte) : Kept s (readPage page s) := by
  unfold readPage
  split <;> exact kept_sendAnswer _

theorem kept_verifyPage : Kept s (verifyPage s) := by
  unfold verifyPage
  split <;> exact kept_sendAnswer _

theorem kept_loadBuffer (page : Byte) (content : List Byte) : Kept s (loadBuffer page content s) := by
  unfold loadBuffer
  split
  · exact kept_sendAnswer _
  · split
    · exact kept_sendAnswer _
    · have stored : Kept s (s.withNvs { s.nvs with buffer := pageBytes content }) := kept_withNvs id
      exact (stored.trans (kept_withSvl _)).trans (kept_sendAnswer _)

theorem kept_programPage : Kept s (programPage s) := by
  unfold programPage
  split
  · exact kept_sendAnswer _
  · split_ifs
    · exact kept_sendAnswer _
    · exact kept_sendAnswer _
    · exact kept_beginWrite ..

theorem kept_eraseStore : Kept s (eraseStore s) := by
  unfold eraseStore
  split
  · exact kept_sendAnswer _
  · exact kept_beginWrite ..

theorem kept_sealStore : Kept s (sealStore s) := by
  unfold sealStore
  split
  · exact kept_sendAnswer _
  · split_ifs
    · exact kept_sendAnswer _
    · exact kept_sendAnswer _
    · exact kept_beginWrite ..

theorem kept_restartPart : Kept s (restartPart s) := by
  unfold restartPart
  split
  · exact kept_sendAnswer _
  · exact (kept_sendAnswer _).trans (kept_withSvl _)

theorem kept_commandByte (b : Byte) : Kept s (commandByte b s) := by
  unfold commandByte
  split_ifs
  · exact kept_keepReceiving _
  · exact kept_sendAnswer _
  · exact kept_keepReceiving _
  · exact kept_keepReceiving _
  · exact kept_programPage
  · exact kept_verifyPage
  · exact kept_eraseStore
  · exact kept_sealStore
  · exact kept_restartPart
  · exact (kept_sendAnswer _).trans (kept_withSvl _)

theorem kept_enterByte (args : List Byte) (b : Byte) : Kept s (enterByte args b s) := by
  unfold enterByte
  split
  · split
    · exact (kept_keepReceiving _).trans (kept_sendAnswer _)
    · exact (kept_sendAnswer _).trans (kept_withSvl _)
  · exact kept_keepReceiving _
  · exact (kept_keepReceiving _).trans (kept_sendAnswer _)

theorem kept_argumentByte (command : Byte) (args : List Byte) (b : Byte) : Kept s (argumentByte command args b s) := by
  unfold argumentByte
  split_ifs
  · exact kept_enterByte _ _
  · exact (kept_keepReceiving _).trans (kept_readPage _)
  · exact kept_keepReceiving _
  · exact (kept_keepReceiving _).trans (kept_loadBuffer _ _)

theorem kept_openByte (b : Byte) : Kept s (openByte b s) := by
  unfold openByte
  split
  · exact .refl s
  · split
    · exact kept_commandByte b
    · exact kept_argumentByte _ _ b

theorem kept_sessionByte (b : Byte) : Kept s (sessionByte b s) := by
  unfold sessionByte
  split
  case h_1 =>
    split
    · exact kept_toSession _
    · exact .refl s
  case h_2 =>
    split_ifs
    · exact (kept_toSession _).trans (kept_sendAnswer _)
    · exact .refl s
    · exact kept_toSession _
  case h_3 => exact kept_toSession _
  case h_4 => exact (kept_toSession _).trans (kept_sendAnswer _)
  case h_5 => exact kept_openByte b

theorem kept_linkBytes (bytes : List Byte) : Kept s (linkBytes bytes s) :=
  .foldl fun _ _ b _ => (kept_settleSilence.trans (kept_withSvl _)).trans (kept_sessionByte b)

theorem kept_linkStopError : Kept s (linkStopError s) := by
  have noted := (kept_settleSilence (s := s)).trans (kept_withSvl { (settleSilence s).svl with lastByte := (settleSilence s).nowMs })
  unfold linkStopError
  dsimp only
  split
  case h_1 => exact noted
  case h_2 | h_3 | h_4 => exact noted.trans (kept_toSession _)
  case h_5 => exact noted.trans (kept_keepReceiving _)

/-- A command that is nothing but bytes on the service link. -/
theorem keeps_linkBytes (dt : Nat) (bytes : List Byte) : Keeps (.next (linkBytes bytes (s.arrive dt))) (s.arrive dt) :=
  keeps_next (kept_linkBytes bytes)

theorem keeps_commandTimeout (dt : Nat) : Keeps (execCommandTimeout dt s) (s.arrive dt) := by
  unfold execCommandTimeout
  dsimp only
  split
  · exact keeps_next (kept_withSvl _)
  · exact keeps_idle

theorem keeps_sessionTimeout (dt : Nat) : Keeps (execSessionTimeout dt s) (s.arrive dt) := by
  unfold execSessionTimeout
  dsimp only
  split
  · exact keeps_next kept_endSession
  · exact keeps_idle

theorem kept_completeService (w : Write) : Kept s (completeService w s) := by
  unfold completeService
  dsimp only
  split
  · exact (kept_finishWrite w).trans (kept_sendAnswer _)
  · exact kept_finishWrite w

theorem keeps_lockoutPageWriteComplete (dt : Nat) : Keeps (execLockoutPageWriteComplete dt s) (s.arrive dt) := by
  unfold execLockoutPageWriteComplete
  dsimp only
  split
  · exact keeps_idle
  · exact keeps_next (kept_finishWrite _)

theorem keeps_programComplete (dt : Nat) : Keeps (execProgramComplete dt s) (s.arrive dt) := by
  unfold execProgramComplete
  dsimp only
  split
  · exact keeps_idle
  · exact keeps_next (kept_completeService _)

theorem keeps_eraseComplete (dt : Nat) : Keeps (execEraseComplete dt s) (s.arrive dt) := by
  unfold execEraseComplete
  dsimp only
  split
  · exact keeps_idle
  · exact keeps_next (kept_completeService _)

theorem keeps_sealComplete (dt : Nat) : Keeps (execSealComplete dt s) (s.arrive dt) := by
  unfold execSealComplete
  dsimp only
  split
  · exact keeps_idle
  · exact keeps_next (kept_completeService _)

/-! ### Every command but the resets -/

/-- The three commands of which the part comes out reset. -/
def Instr.isReset : Instr → Bool
  | .powerOn _ | .supplyDip _ | .serviceRestart _ _ => true
  | _ => false

theorem exec_keeps {command : Instr} (running : Instr.isReset command = false) :
    Keeps (exec command s) (s.arrive command.span) := by
  cases command with
  | powerOn | supplyDip | serviceRestart => cases running
  | protectionTick dt raw order => exact keeps_protectionTick dt raw order
  | windowSample dt => exact keeps_windowSample dt
  | windowClose dt order => exact keeps_windowClose dt order
  | shutdownAssertion dt => exact keeps_shutdownAssertion dt
  | shutdownDeassertion dt => exact keeps_shutdownDeassertion dt
  | openingStep dt i => exact keeps_openingStep dt i
  | confirmDeadline dt i => exact keeps_confirmDeadline dt i
  | partingDeadline dt i => exact keeps_partingDeadline dt i
  | makingDeadline dt i => exact keeps_makingDeadline dt i
  | closingStep dt i => exact keeps_closingStep dt i
  | retryEnd dt i => exact keeps_retryEnd dt i
  | startupEnd dt i => exact keeps_startupEnd dt i
  | voltageRecheck dt i => exact keeps_voltageRecheck dt i
  | contestWindowEnd at' => exact keeps_contestWindowEnd at'
  | resolutionDeadline dt => exact keeps_resolutionDeadline dt
  | quietPeriodEnd dt => exact keeps_quietPeriodEnd dt
  | settleEnd dt => exact keeps_settleEnd dt
  | rivalExpiry dt station => exact keeps_rivalExpiry dt station
  | telegramComplete dt b => exact keeps_telegramComplete dt b
  | idleGapExpiry dt => exact keeps_idleGapExpiry dt
  | deferralExpiry dt => exact keeps_deferralExpiry dt
  | transmissionComplete dt => exact keeps_transmissionComplete dt
  | collision dt => exact keeps_collision dt
  | isolate dt => exact keeps_next (kept_serve _ kept_serveIsolate)
  | release dt => exact keeps_next (kept_serve _ kept_serveRelease)
  | acknowledge dt => exact keeps_next (kept_serve _ kept_serveAcknowledge)
  | readStatus dt => exact keeps_next (kept_serve _ fun _ _ u _ => .refl u)
  | readStrings dt => exact keeps_next (kept_serve _ kept_serveReadStrings)
  | readLog dt => exact keeps_next (kept_serve _ kept_serveReadLog)
  | readTally dt => exact keeps_next (kept_serve _ kept_serveReadTally)
  | lockoutPageWriteComplete dt => exact keeps_lockoutPageWriteComplete dt
  | enter dt args => exact keeps_linkBytes dt _
  | readFactory dt => exact keeps_linkBytes dt _
  | readPage dt args => exact keeps_linkBytes dt _
  | verifyPage dt => exact keeps_linkBytes dt _
  | loadBuffer dt args => exact keeps_linkBytes dt _
  | programPage dt => exact keeps_linkBytes dt _
  | programComplete dt => exact keeps_programComplete dt
  | eraseStore dt => exact keeps_linkBytes dt _
  | eraseComplete dt => exact keeps_eraseComplete dt
  | sealStore dt => exact keeps_linkBytes dt _
  | sealComplete dt => exact keeps_sealComplete dt
  | restart dt => exact keeps_linkBytes dt _
  | unknownCommandByte dt byte => exact keeps_linkBytes dt _
  | commandTimeout dt => exact keeps_commandTimeout dt
  | sessionTimeout dt => exact keeps_sessionTimeout dt
  | byteArrival dt b stopError => exact keeps_byteArrival dt b stopError
  | serviceStopError dt => exact keeps_next kept_linkStopError

end

end Sys2Proof.Machine
end

section
/-! Proofs: the three resets (R149, R174, R175): the settings, holds and window that they leave, and that the state they leave meets
every condition of Safety.lean. -/

namespace Sys2Proof.Machine

/-! ### The check of the record (R175) -/

theorem firstFailure_eq_zero_iff {n : Nat} {l : List Bool} (h : 0 < n) : firstFailure n l = 0 ↔ ∀ ok ∈ l, ok = true := by
  induction l generalizing n with
  | nil => simp [firstFailure]
  | cons ok l ih =>
    cases ok
    · simp [firstFailure, Nat.ne_of_gt h]
    · simp [firstFailure, ih (Nat.succ_pos n)]

/-- A record that loads passes every check of its station fields. -/
theorem stationFieldChecks_of_good {m : Memory} (h : offendingField m = 0) : ∀ ok ∈ stationFieldChecks m, ok = true := fun ok mem =>
  (firstFailure_eq_zero_iff Nat.one_pos).1 h ok (List.mem_append_left _ mem)

theorem rampSteps_of_good {m : Memory} (h : offendingField m = 0) : 1 ≤ (settingsOf m).rampSteps ∧ (settingsOf m).rampSteps ≤ 16 :=
  inRange_iff.1 (stationFieldChecks_of_good h _ (by simp [stationFieldChecks, settingsOf]))

theorem persistence_of_good {m : Memory} (h : offendingField m = 0) :
    2 ≤ (settingsOf m).persistence ∧ (settingsOf m).persistence ≤ 30 :=
  inRange_iff.1 (stationFieldChecks_of_good h _ (by simp [stationFieldChecks, settingsOf]))

/-! ### What a reset leaves (R149, R174, R175) -/

section
variable (kind : ResetKind) (level : Bool) (log : Flg) (s : State)

/-- Every block at its reset values, with the shutdown input at a level: what a reset hands to the settings load. -/
def blanked : State := blankReset kind log (s.withHld { s.hld with shutdown := level })

/-- The same with the settings of a record that passes latched and the first window open: what the load hands to the Hold manager. -/
def latched : State :=
  let blank := blanked kind level log s
  ((((loadTrims blank).withNvs { blank.nvs with offending := 0 }).withSettings (some (settingsOf (cutOff s.nvs).store))).withWac
    { blank.wac with countdown := some ((settingsOf (cutOff s.nvs).store).sampleInterval / 10) })

variable {kind level log s}

theorem resetPart_of_offending (h : offendingField (cutOff s.nvs).store ≠ 0) :
    resetPart kind level log s = (loadTrims (blanked kind level log s)).withNvs
      { resetStore kind s.nvs with offending := offendingField (cutOff s.nvs).store } :=
  settingsLoad_of_offending (s := blanked kind level log s) h

theorem resetPart_of_good (h : offendingField (cutOff s.nvs).store = 0) :
    resetPart kind level log s = startHolds (latched kind level log s) :=
  settingsLoad_of_good (s := blanked kind level log s) h

theorem settings_resetPart :
    (resetPart kind level log s).settings =
      if offendingField (cutOff s.nvs).store = 0 then some (settingsOf (cutOff s.nvs).store) else none := by
  split
  case isTrue good =>
    rw [resetPart_of_good good, (startHolds_frame _).2.1]
    rfl
  case isFalse bad =>
    rw [resetPart_of_offending bad]
    rfl

theorem wac_resetPart :
    (resetPart kind level log s).wac =
      if offendingField (cutOff s.nvs).store = 0 then
        { Wac.reset with countdown := some ((settingsOf (cutOff s.nvs).store).sampleInterval / 10) }
      else Wac.reset := by
  split
  case isTrue good =>
    rw [resetPart_of_good good]
    simp only [startHolds_frame]
    rfl
  case isFalse bad =>
    rw [resetPart_of_offending bad]
    rfl

theorem present_latched (i : StringIdx) :
    (latched kind level log s).present i = (settingsOf (cutOff s.nvs).store).strings[i].present := rfl

theorem hold_latched (i : StringIdx) : (latched kind level log s).hold i = Hold.reset := by
  simp [latched, loadTrims, blanked, blankReset, State.hold]

theorem inputs_latched :
    (latched kind level log s).nvs.store = (cutOff s.nvs).store ∧ (latched kind level log s).hld.shutdown = level ∧
      (latched kind level log s).nowMs = 0 := ⟨rfl, rfl, by simp [State.nowMs, latched, blanked, blankReset, loadTrims]⟩

/-- The holds that a load in RUN gives a present string. -/
def loadedHold (m : Memory) (level : Bool) (i : StringIdx) : Hold :=
  if lockoutPageGood m then startHold m level 0 i Hold.reset else (startHold m level 0 i Hold.reset).addLockout

theorem hold_resetPart_of_good (h : offendingField (cutOff s.nvs).store = 0) (i : StringIdx) :
    (resetPart kind level log s).hold i =
      if (settingsOf (cutOff s.nvs).store).strings[i].present = true then loadedHold (cutOff s.nvs).store level i else Hold.reset := by
  rw [resetPart_of_good h]
  obtain ⟨store, input, now⟩ := inputs_latched (kind := kind) (level := level) (log := log) (s := s)
  unfold loadedHold
  cases good : lockoutPageGood (cutOff s.nvs).store
  · rw [hold_startHolds_of_lost good, hold_latched, present_latched, store, input, now]
    rfl
  · rw [hold_startHolds_of_good good, hold_latched, present_latched, store, input, now]
    rfl

theorem hold_resetPart_of_offending (h : offendingField (cutOff s.nvs).store ≠ 0) (i : StringIdx) :
    (resetPart kind level log s).hold i = Hold.reset := by
  rw [resetPart_of_offending h]
  simp [loadTrims, blanked, blankReset, State.hold]

theorem path_resetPart (i : StringIdx) : (resetPart kind level log s).path i = Path.reset := by
  simp [State.path, resetPart_frame]

theorem adjOf_resetPart (i : StringIdx) : (resetPart kind level log s).adjOf i = AdjRecord.reset := by
  simp [State.adjOf, resetPart_frame]

/-! ### The state that a reset leaves meets the conditions -/

theorem pathsOk_resetPart : (resetPart kind level log s).pathsOk = true := by
  refine pathsOk_iff.2 ⟨fun c settings => ?_, by simp only [resetPart_frame]; simp, fun i => ?_⟩
  · rw [settings_resetPart] at settings
    split at settings
    case isTrue good =>
      cases settings
      exact rampSteps_of_good good
    case isFalse => cases settings
  · rw [path_resetPart]
    rfl

theorem tripOk_resetPart : (resetPart kind level log s).tripOk = true := by
  refine tripOk_iff.2 fun stuck => ?_
  rcases stuck with ⟨i, stuck⟩ | latch
  · rw [path_resetPart] at stuck
    cases stuck
  · simp only [resetPart_frame] at latch
    cases latch

theorem holdLegal_loaded (budget : Nat) (m : Memory) (i : StringIdx) : HoldLegal budget true false (loadedHold m level i) := by
  unfold loadedHold
  split <;> exact ⟨.inl rfl, Nat.zero_le _, .inl rfl, rfl⟩

theorem holdLegal_reset (budget : Nat) (present : Bool) : HoldLegal budget present false Hold.reset :=
  ⟨.inl rfl, Nat.zero_le _, .inr rfl, rfl⟩

theorem holdsOk_resetPart : (resetPart kind level log s).holdsOk = true := by
  refine holdsOk_iff.2 fun i => ?_
  rw [path_resetPart]
  by_cases good : offendingField (cutOff s.nvs).store = 0
  · rw [hold_resetPart_of_good good]
    split
    case isTrue present =>
      have loaded : (resetPart kind level log s).present i = true := by
        rw [State.present, settings_resetPart, if_pos good]
        exact present
      rw [loaded]
      exact holdLegal_loaded _ _ i
    case isFalse => exact holdLegal_reset _ _
  · rw [hold_resetPart_of_offending good]
    exact holdLegal_reset _ _

theorem strikesOk_resetPart : (resetPart kind level log s).strikesOk = true := by
  refine strikesOk_iff.2 ⟨by simp only [resetPart_frame]; simp, fun i => ?_⟩
  rw [adjOf_resetPart, settings_resetPart]
  split
  case isTrue good =>
    have range := persistence_of_good good
    refine ⟨range, ?_⟩
    split
    · exact Nat.lt_of_lt_of_le (by decide) range.1
    · decide
  case isFalse => rfl

theorem wf_resetPart (h : Memory.wf s.nvs.store = true) : Memory.wf (resetPart kind level log s).nvs.store = true := by
  have kept := wf_cutOff h
  by_cases good : offendingField (cutOff s.nvs).store = 0
  · rw [resetPart_of_good good, startHolds]
    dsimp only
    split
    · exact kept
    · exact wf_withMaskChange kept
  · rw [resetPart_of_offending good]
    exact kept

theorem abu_ok_resetPart : (resetPart kind level log s).abu.Ok := by
  simp only [resetPart_frame]
  exact abu_ok_reset _

theorem peersOk_resetPart : (resetPart kind level log s).peersOk = true := by
  rw [peersOk_iff, settings_resetPart]
  simp only [resetPart_frame]
  split <;> exact ⟨by decide, List.Pairwise.nil, by decide, by simp [Ptb.reset]⟩

theorem rivalsOk_resetPart : (resetPart kind level log s).rivalsOk = true := by
  rw [rivalsOk_iff]
  simp only [resetPart_frame]
  exact ⟨by decide, List.nodup_nil⟩

theorem wac_ok_resetPart : (resetPart kind level log s).wac.ok = true := by
  rw [wac_resetPart]
  split <;> rfl

end

/-! ### One step (the conditions of Safety.lean) -/

/-- Each condition that holds in `s` holds in `t`. -/
structure Preserved (s t : State) : Prop where
  paths : s.pathsOk = true → t.pathsOk = true
  trip : s.tripOk = true → t.tripOk = true
  holds : s.holdsOk = true → t.holdsOk = true
  bus : s.abu.Ok → t.abu.Ok
  log : s.flg.ok = true → t.flg.ok = true
  store : Memory.wf s.nvs.store = true → Memory.wf t.nvs.store = true
  peers : s.peersOk = true → t.peersOk = true
  rivals : s.rivalsOk = true → t.rivalsOk = true
  strikes : s.strikesOk = true → t.strikesOk = true
  window : s.wac.ok = true → t.wac.ok = true

theorem Kept.preserved {s t : State} (h : Kept s t) : Preserved s t :=
  ⟨h.paths, h.trip, h.holds, h.bus, h.log, h.store, h.peers, h.rivals, h.strikes, h.window⟩

theorem Preserved.trans {s t u : State} (h : Preserved s t) (k : Preserved t u) : Preserved s u :=
  ⟨k.paths ∘ h.paths, k.trip ∘ h.trip, k.holds ∘ h.holds, k.bus ∘ h.bus, k.log ∘ h.log, k.store ∘ h.store, k.peers ∘ h.peers,
    k.rivals ∘ h.rivals, k.strikes ∘ h.strikes, k.window ∘ h.window⟩

/-- No condition speaks of the time, nor of the queue of commands. -/
theorem preserved_elapse (dt : Nat) (s : State) : Preserved s (s.elapse dt) := ⟨id, id, id, id, id, id, id, id, id, id⟩

theorem preserved_queue (rest : List Instr) (s : State) : Preserved s { s with pending := rest } :=
  ⟨id, id, id, id, id, id, id, id, id, id⟩

theorem preserved_settled (s : State) : Preserved s s.settled := (kept_settled s).preserved

theorem preserved_arrive (dt : Nat) (s : State) : Preserved s (s.arrive dt) := by
  unfold State.arrive State.awaited
  split
  · exact preserved_elapse dt s
  · exact (preserved_settled s).trans (preserved_elapse dt _)

/-- A reset preserves every condition that the log it is given preserves. -/
theorem preserved_resetPart {kind : ResetKind} {level : Bool} {log : Flg} {s : State} (kept : s.flg.ok = true → log.ok = true) :
    Preserved s (resetPart kind level log s) where
  paths _ := pathsOk_resetPart
  trip _ := tripOk_resetPart
  holds _ := holdsOk_resetPart
  bus _ := abu_ok_resetPart
  log ok := by
    rw [flg_resetPart]
    exact kept ok
  store := wf_resetPart
  peers _ := peersOk_resetPart
  rivals _ := rivalsOk_resetPart
  strikes _ := strikesOk_resetPart
  window _ := wac_ok_resetPart

theorem exec_preserves {command : Instr} {s t : State} (run : exec command s = .next t) : Preserved s t := by
  cases resets : Instr.isReset command
  case false =>
    obtain ⟨u, answer, kept⟩ := exec_keeps (s := s) resets
    obtain rfl : u = t := by simpa using answer.symm.trans run
    exact (preserved_arrive _ s).trans kept.preserved
  case true =>
    cases command with
    | powerOn level | supplyDip level =>
      cases run
      exact (preserved_settled s).trans (preserved_resetPart fun _ => rfl)
    | serviceRestart dt level =>
      have passed := (preserved_settled s).trans (preserved_elapse dt s.settled)
      rw [exec_serviceRestart, execServiceRestart] at run
      split at run
      · cases run
        exact passed.trans (preserved_resetPart flg_ok_restarted)
      · cases run
        exact passed
    | _ => cases resets

/-- The key invariant: whatever the next command is, a step loses none of the conditions. -/
theorem step_preserves {s t : State} (run : step s = .next t) : Preserved s t := by
  unfold step at run
  split at run
  · cases run
    exact ⟨id, id, id, id, id, id, id, id, id, id⟩
  · exact (preserved_queue _ s).trans (exec_preserves run)

end Sys2Proof.Machine

namespace Sys2Proof.Proofs

open Sys2Proof Sys2Proof.Machine

/-- Settles O54: a whole path part with its relay open has its drive at 0, and every step keeps the path parts whole. -/
theorem stepKeepsPathRecordsWhole : Obligations.StepKeepsPathRecordsWhole :=
  ⟨fun _ ok => relaysSafe_of_paths (pathsOk_iff.1 ok).2.2, fun _ _ ok run => (step_preserves run).paths ok⟩

/-- Settles O55. -/
theorem stepKeepsTheBoxTripLine : Obligations.StepKeepsTheBoxTripLine := fun _ _ ok run => (step_preserves run).trip ok

/-- Settles O56. -/
theorem stepKeepsHoldsInOrder : Obligations.StepKeepsHoldsInOrder := fun _ _ ok run => (step_preserves run).holds ok

/-- Settles O57. -/
theorem stepKeepsTheTransmitQueueLegal : Obligations.StepKeepsTheTransmitQueueLegal := fun _ _ queue tally run =>
  have ok := (step_preserves run).bus ⟨queue, tally⟩
  ⟨ok.queue, ok.tally⟩

/-- Settles O58. -/
theorem stepKeepsTheFaultLogInOrder : Obligations.StepKeepsTheFaultLogInOrder := fun _ _ ok run => (step_preserves run).log ok

/-- Settles O59. -/
theorem stepKeepsStoreAndTables : Obligations.StepKeepsStoreAndTables := fun _ _ run =>
  have kept := step_preserves run
  ⟨kept.store, kept.peers, kept.rivals, kept.strikes, kept.window⟩

/-- Settles O60: the state of the model's start, evaluated. -/
theorem resetStateIsSafe : Obligations.ResetStateIsSafe := by
  unfold Obligations.ResetStateIsSafe
  decide +kernel

/-- Settles O1: both are the definition of a step. -/
theorem stepRunsTheFrontCommand : Obligations.StepRunsTheFrontCommand := by
  refine ⟨fun _ _ _ => rfl, fun s empty => ?_⟩
  rw [step, empty]

end Sys2Proof.Proofs
end

section
/-! Proofs: what every command does with the time and with what is on its way (R174, R181, R7). -/

namespace Sys2Proof.Machine

theorem arrive_pending (dt : Nat) (s : State) : (s.arrive dt).pending = s.pending := by
  simp only [State.arrive, State.elapse_pending, awaited_frame]

theorem arrive_timeUs (dt : Nat) (s : State) : (s.arrive dt).timeUs = s.timeUs + dt := by
  simp only [State.arrive, State.elapse_timeUs, awaited_frame]

theorem resetPart_pending (kind : ResetKind) (level : Bool) (log : Flg) (s : State) :
    (resetPart kind level log s).pending = s.pending := by simp only [resetPart_frame]

theorem resetPart_timeUs (kind : ResetKind) (level : Bool) (log : Flg) (s : State) : (resetPart kind level log s).timeUs = 0 := by
  simp only [resetPart_frame]

theorem settled_pending (s : State) : s.settled.pending = s.pending := by simp only [settled_frame]

theorem settled_timeUs (s : State) : s.settled.timeUs = s.timeUs := by simp only [settled_frame]

/-- A SERVICE_RESTART that is not due lets time pass alone. -/
theorem exec_serviceRestart_of_not_due {dt : Nat} {s : State} (level : Bool) (waits : restartDue (s.settled.elapse dt) = false) :
    exec (.serviceRestart dt level) s = .next (s.settled.elapse dt) := by
  rw [exec_serviceRestart, execServiceRestart]
  exact if_neg (by simp [waits])

end Sys2Proof.Machine

namespace Sys2Proof.Proofs

open Sys2Proof Sys2Proof.Machine

/-- Settles O2: a command that runs the part on keeps the queue at the moment it arrives at, and a reset starts the uptime again. -/
theorem everyCommandAnswersNext : Obligations.EveryCommandAnswersNext := by
  intro command s
  cases resets : Instr.isReset command
  case false =>
    obtain ⟨t, answer, kept⟩ := exec_keeps (s := s) resets
    exact ⟨t, answer, kept.pending.trans (arrive_pending _ s), .inl (kept.timeUs.trans (arrive_timeUs _ s))⟩
  case true =>
    cases command with
    | powerOn level =>
      exact ⟨_, exec_powerOn level s, (resetPart_pending ..).trans (settled_pending s), .inr ⟨resetPart_timeUs .., .inl ⟨level, rfl⟩⟩⟩
    | supplyDip level =>
      exact ⟨_, exec_supplyDip level s, (resetPart_pending ..).trans (settled_pending s),
        .inr ⟨resetPart_timeUs .., .inr (.inl ⟨level, rfl⟩)⟩⟩
    | serviceRestart dt level =>
      cases due : restartDue (s.settled.elapse dt)
      · exact ⟨_, exec_serviceRestart_of_not_due level due, settled_pending s, .inl (congrArg (· + dt) (settled_timeUs s))⟩
      · exact ⟨_, exec_serviceRestart_of_due level due, (resetPart_pending ..).trans (settled_pending s),
          .inr ⟨resetPart_timeUs .., .inr (.inr ⟨dt, level, rfl⟩)⟩⟩
    | _ => cases resets

end Sys2Proof.Proofs
end

section
/-! Proofs: what waits between the blocks is taken before time passes (R7, R83, R91, R120). -/

namespace Sys2Proof.Machine

/-! ### A command reads the state in which it arrives -/

/-- Every command but a reset answers by the state in which it finds the part. -/
theorem exec_congr_of_arrive {command : Instr} {s t : State} (running : Instr.isReset command = false)
    (same : s.arrive command.span = t.arrive command.span) : exec command s = exec command t := by
  cases command with
  | powerOn | supplyDip | serviceRestart => cases running
  | contestWindowEnd at' =>
    have same : s.arrive at'.dt = t.arrive at'.dt := same
    dsimp only [exec, execContestWindowEnd]
    rw [same]
  | _ =>
    dsimp only [Instr.span] at same
    dsimp only [exec, execProtectionTick, execWindowSample, execWindowClose, execOpeningStep, execConfirmDeadline,
      execPartingDeadline, execMakingDeadline, execClosingStep, execRetryEnd, execStartupEnd, execVoltageRecheck,
      execShutdownAssertion, execShutdownDeassertion, execResolutionDeadline, execQuietPeriodEnd, execSettleEnd,
      execRivalExpiry, execIsolate, execRelease, execAcknowledge, execReadStatus, execReadStrings, execReadLog, execReadTally,
      execEnter, execReadFactory, execReadPage, execLoadBuffer, execProgramPage, execVerifyPage, execEraseStore, execSeal,
      execRestart, execUnknownCommandByte, execServiceStopError, execCommandTimeout, execSessionTimeout,
      execLockoutPageWriteComplete, execProgramComplete, execEraseComplete, execSealComplete, execByteArrival,
      execTelegramComplete, execIdleGapExpiry, execDeferralExpiry, execTransmissionComplete, execCollision]
    rw [same]

theorem settled_settled (s : State) : s.settled.settled = s.settled := by
  obtain ⟨arrivals, demands⟩ := arrivals_settled s
  exact (awaited_of_nil arrivals demands 1)

theorem arrive_of_pos {dt : Nat} (h : 0 < dt) (s : State) : s.arrive dt = s.settled.elapse dt := by
  rw [State.arrive, awaited_of_pos h]

theorem arrive_zero (s : State) : s.arrive 0 = s := rfl

/-- Before time passes what was on its way has been taken, so a command finds the same once it is taken. -/
theorem exec_settled_of_span {command : Instr} (s : State) (running : Instr.isReset command = false) (time : 0 < command.span) :
    exec command s = exec command s.settled :=
  exec_congr_of_arrive running (by rw [arrive_of_pos time, arrive_of_pos time, settled_settled])

/-- A reset takes it first. -/
theorem exec_settled_of_reset {command : Instr} (s : State) (resets : Instr.isReset command = true) :
    exec command s = exec command s.settled := by
  cases command with
  | powerOn level => rw [exec_powerOn, exec_powerOn, settled_settled]
  | supplyDip level => rw [exec_supplyDip, exec_supplyDip, settled_settled]
  | serviceRestart dt level =>
    rw [exec_serviceRestart, exec_serviceRestart, execServiceRestart, execServiceRestart, settled_settled]
  | _ => cases resets

/-! ### Taking the open demands, string by string (R120 to R134) -/

theorem path_takeDemand (s : State) (d : Demand) (i : StringIdx) :
    (takeDemand s d).path i = if d.string = i then (s.path i).demanded s.nowMs d.reason d.steps else s.path i := by
  rw [takeDemand, path_openDemand]
  by_cases mine : d.string = i
  · simp [mine]
  · simp [mine, Ne.symm mine]

/-- A demand makes closed-since absent on its own string, if that was CLOSED. -/
theorem hold_takeDemand (s : State) (d : Demand) (i : StringIdx) :
    (takeDemand s d).hold i =
      if d.string = i ∧ (s.path i).state = .closed then { s.hold i with closedSince := none } else s.hold i := by
  rw [takeDemand, hold_openDemand]
  by_cases mine : d.string = i
  · simp [mine]
  · simp [mine, Ne.symm mine]

theorem path_takeDemands (s : State) (i : StringIdx) :
    (takeDemands s).path i =
      (s.demands.filter fun d => decide (d.string = i)).foldl (fun p d => p.demanded s.nowMs d.reason d.steps) (s.path i) := by
  generalize waiting : s.demands = l
  induction l generalizing s with
  | nil => rw [takeDemands_of_nil waiting]; rfl
  | cons d rest ih =>
    rw [takeDemands_cons waiting, ih _ rfl]
    have now : (takeDemand s d).nowMs = s.nowMs := by simp only [takeDemand, openDemand, changePath_frame]
    simp only [State.withDemands_path, State.withDemands_nowMs, now, path_takeDemand]
    by_cases mine : d.string = i <;> simp [mine]

theorem hold_takeDemands (s : State) (i : StringIdx) :
    (takeDemands s).hold i =
      if s.demands.filter (fun d => decide (d.string = i)) ≠ [] ∧ (s.path i).state = .closed
      then { s.hold i with closedSince := none } else s.hold i := by
  generalize waiting : s.demands = l
  induction l generalizing s with
  | nil => rw [takeDemands_of_nil waiting]; simp
  | cons d rest ih =>
    rw [takeDemands_cons waiting, ih _ rfl]
    simp only [State.withDemands_path, State.withDemands_hold, path_takeDemand, hold_takeDemand]
    by_cases mine : d.string = i
    · simp [mine, demanded_state_closed]
    · simp [mine]

theorem takeDemands_leaves (s : State) :
    (takeDemands s).demands = [] ∧ (takeDemands s).flg = s.flg ∧ (takeDemands s).adj = s.adj ∧ (takeDemands s).nvs = s.nvs ∧
      (takeDemands s).abu = s.abu := by
  refine ⟨?_, by simp⟩
  rw [takeDemands, foldl_keeps State.demands _ (by intros; simp)]
  rfl

end Sys2Proof.Machine

namespace Sys2Proof.Proofs

open Sys2Proof Sys2Proof.Machine

/-- Settles O3. -/
theorem arrivalsAndDemandsAreTakenBeforeTimePasses : Obligations.ArrivalsAndDemandsAreTakenBeforeTimePasses := by
  refine ⟨fun command s before => ?_, fun dt s => ⟨arrive_timeUs dt s, fun time => arrive_of_pos time s, ?_⟩, fun s => ?_,
    fun s uncommissioned => ?_, fun c s settings => ⟨?_, rfl, rfl, fun _ => rfl, fun _ => ⟨rfl, rfl⟩⟩, fun s => ?_⟩
  · cases resets : Instr.isReset command
    case true => exact exec_settled_of_reset s resets
    case false =>
      rcases before with time | ⟨level, rfl⟩ | ⟨level, rfl⟩ | ⟨dt, level, rfl⟩
      · exact exec_settled_of_span s resets time
      all_goals cases resets
  · rintro rfl
    exact arrive_zero s
  · obtain ⟨arrivals, demands⟩ := arrivals_settled s
    exact ⟨rfl, arrivals, demands, fun noArrival noDemand => awaited_of_nil noArrival noDemand 1⟩
  · rw [takeArrivals, uncommissioned]
  · rw [takeArrivals, settings]
  · obtain ⟨demands, flg, adj, nvs, abu⟩ := takeDemands_leaves s
    exact ⟨rfl, rfl, demands, flg, adj, nvs, abu, fun i => ⟨path_takeDemands s i, hold_takeDemands s i⟩⟩

end Sys2Proof.Proofs
end

section
/-! Proofs: the sequencer's steps and deadlines, and the timed holds (chapters 7 and 8). -/

namespace Sys2Proof.Machine

section
variable {s : State}

/-! ### What each deadline command does when it is due -/

theorem phaseDue_of {state : PathState} {i : StringIdx} {d : Ms} (at' : (s.path i).state = state)
    (deadline : (s.path i).deadline = some d) (due : reached s.nowMs d = true) : phaseDue state i s = true := by
  simp [phaseDue, at', deadline, reachedOpt, due]

variable {start : State} {dt : Nat} {i : StringIdx} {c : Settings} (arrives : start.arrive dt = s)
include arrives

theorem exec_openingStep_of_due (due : phaseDue .opening i s = true) :
    exec (.openingStep dt i) start = .next (changePath i ((s.path i).openingStep s.nowMs) s) := by
  simp only [exec, execOpeningStep, arrives, due, if_true]

theorem exec_closingStep_of_due (due : phaseDue .closing i s = true) :
    exec (.closingStep dt i) start = .next (changePath i (s.path i).closingStep s) := by
  simp only [exec, execClosingStep, arrives, due, if_true]

theorem exec_makingDeadline_of_due (settings : s.settings = some c) (due : phaseDue .making i s = true) :
    exec (.makingDeadline dt i) start = .next (changePath i { s.path i with
      state := .closing, stepCount := some c.rampSteps, stepsLeft := some c.rampSteps
      deadline := some (s.nowMs + ms 2) } s) := by
  simp only [exec, execMakingDeadline, arrives, settings, due, if_true]

theorem exec_partingDeadline_of_due (due : phaseDue .parting i s = true) :
    exec (.partingDeadline dt i) start =
      .next (considerClose i (changePath i { s.path i with state := .isolated, deadline := none } s)) := by
  simp only [exec, execPartingDeadline, arrives, due, if_true]

theorem exec_confirmDeadline_of_due (settings : s.settings = some c) (due : phaseDue .confirming i s = true) :
    exec (.confirmDeadline dt i) start = .next (enterStuck c i s) := by
  simp only [exec, execConfirmDeadline, arrives, settings, due, if_true]

theorem exec_retryEnd_of_due {d : Ms} (until' : (s.hold i).retryUntil = some d) (due : reached s.nowMs d = true) :
    exec (.retryEnd dt i) start = .next (considerClose i (s.setHold i { s.hold i with retryUntil := none })) := by
  simp only [exec, execRetryEnd, arrives, reachedOpt, until', due, if_true]

theorem exec_startupEnd_of_due {d : Ms} (until' : (s.hold i).startupUntil = some d) (due : reached s.nowMs d = true) :
    exec (.startupEnd dt i) start = .next (considerClose i (s.setHold i { s.hold i with startupUntil := none })) := by
  simp only [exec, execStartupEnd, arrives, reachedOpt, until', due, if_true]

theorem exec_voltageRecheck (settings : s.settings = some c) :
    exec (.voltageRecheck dt i) start =
      if reachedOpt s.nowMs (s.hold i).voltageRecheck = true ∧ (s.hold i).voltageWaitAlone = true ∧ (s.path i).state = .isolated
      then .next (recheckVoltage c i s) else .next s := by
  simp only [exec, execVoltageRecheck, arrives, settings]

omit arrives

/-! ### Steps of a ramp (R119, R122, R132) -/

variable {p : Path} {n k : Nat} {d : Ms}

theorem openingStep_of_more (now : Ms) (count : p.stepCount = some n) (left : p.stepsLeft = some k) (deadline : p.deadline = some d)
    (more : k ≠ 1) (above : 255 / n < p.level) :
    p.openingStep now = { p with level := p.level - 255 / n, stepsLeft := some (k - 1), deadline := some (d + ms 2) } := by
  have positive : p.level - 255 / n ≠ 0 := by omega
  simp [Path.openingStep, count, left, deadline, stepDown, rampIncrement, more, positive]

theorem openingStep_of_last (now : Ms) (left : p.stepsLeft = some 1) :
    p.openingStep now =
      { p with state := .confirming, level := 0, stepCount := none, stepsLeft := none, deadline := some (now + ms 50) } := by
  simp [Path.openingStep, left, stepDown]

theorem closingStep_of_more (count : p.stepCount = some n) (left : p.stepsLeft = some k) (deadline : p.deadline = some d)
    (more : k ≠ 1) (below : p.level + 255 / n < 255) :
    p.closingStep = { p with level := p.level + 255 / n, stepsLeft := some (k - 1), deadline := some (d + ms 2) } := by
  have unfull : p.level + 255 / n ≠ 255 := by omega
  simp [Path.closingStep, count, left, deadline, stepUp, rampIncrement, more, unfull]

theorem closingStep_of_last (left : p.stepsLeft = some 1) :
    p.closingStep =
      { p with state := .closed, level := 255, stepCount := none, stepsLeft := none, deadline := none, reason := none } := by
  simp [Path.closingStep, left, stepUp]

end

/-- A ramp down reaches the bottom with its last step and not before, unless its steps are used up by the step count. -/
theorem rampDownSteps_enough {steps level : Nat} (h : 1 ≤ steps ∧ steps ≤ 16) :
    rampDownSteps level steps = steps ∨ level ≤ rampDownSteps level steps * (255 / steps) := by
  have increment : 0 < 255 / steps := Nat.div_pos (by omega) h.1
  unfold rampDownSteps rampIncrement
  generalize 255 / steps = w at increment ⊢
  have whole : level ≤ (level + w - 1) / w * w := by
    have := Nat.lt_div_mul_add (a := level + w - 1) increment
    omega
  rcases Nat.le_total steps ((level + w - 1) / w) with full | short
  · left
    omega
  · right
    rw [Nat.min_eq_right short]
    exact whole.trans (Nat.mul_le_mul_right w (Nat.le_max_right ..))

theorem rampDownSteps_above {steps level j : Nat} (h : 1 ≤ steps ∧ steps ≤ 16) (before : j < rampDownSteps level steps)
    (positive : 0 < level) : 0 < level - j * (255 / steps) := by
  have increment : 0 < 255 / steps := Nat.div_pos (by omega) h.1
  unfold rampDownSteps rampIncrement at before
  generalize 255 / steps = w at increment before ⊢
  have fewer : j = 0 ∨ j + 1 ≤ (level + w - 1) / w := by omega
  rcases fewer with rfl | fewer
  · simpa using positive
  · have := (Nat.le_div_iff_mul_le increment).1 fewer
    rw [Nat.succ_mul] at this
    omega

end Sys2Proof.Machine

namespace Sys2Proof.Proofs

open Sys2Proof Sys2Proof.Machine

/-- Settles O26: each step by its own equation, and the number of steps from the arithmetic of R119. -/
theorem rampsLowerAndRaiseTheDrive : Obligations.RampsLowerAndRaiseTheDrive := by
  refine ⟨?_, ?_, ?_⟩
  · intro dt i start n k d
    dsimp only
    generalize arrives : start.arrive dt = s
    intro count left deadline due
    refine ⟨fun state more above => ?_, fun state last => ?_, fun state more below => ?_, fun state last => ?_⟩
    · rw [exec_openingStep_of_due arrives (phaseDue_of state deadline due), openingStep_of_more _ count left deadline more above,
        changePath_of_eq (by exact rfl)]
    · rw [exec_openingStep_of_due arrives (phaseDue_of state deadline due), openingStep_of_last _ (last ▸ left),
        changePath_of_ne (by simp [state]) (by simp [state]) (by simp)]
    · rw [exec_closingStep_of_due arrives (phaseDue_of state deadline due), closingStep_of_more count left deadline more below,
        changePath_of_eq (by exact rfl)]
    · rw [exec_closingStep_of_due arrives (phaseDue_of state deadline due), closingStep_of_last (last ▸ left),
        changePath_of_closed (by simp [state]) rfl]
  · intro dt i start c d
    dsimp only
    generalize arrives : start.arrive dt = s
    intro settings state deadline due
    rw [exec_makingDeadline_of_due arrives settings (phaseDue_of state deadline due),
      changePath_of_ne (by simp [state]) (by simp [state]) (by simp)]
  · intro steps level low high _
    have range := And.intro low high
    obtain ⟨one, most⟩ := rampDownSteps_range level low
    refine ⟨one, most, ?_, fun j before => rampDownSteps_above range before, rampDownSteps_enough range⟩
    rintro rfl
    exact rampDownSteps_full low high

end Sys2Proof.Proofs
end

section
/-! Proofs: the rest of the deadlines: STUCK, ISOLATED, the timed holds and the voltage recheck (R125, R127, R141 to R143), and what a
declaration and an open demand do (R91, R120, R140, R154 to R156). -/

namespace Sys2Proof.Machine

/-! ### Making room in the log (R156) -/

/-- With an acknowledged record in a full log the oldest such goes, and nothing is counted lost. -/
theorem makeRoom_of_acknowledged {f : Flg} {before after : List FaultRecord} {r : FaultRecord} (full : 32 ≤ f.records.length)
    (records : f.records = before ++ r :: after) (fresh : ∀ q ∈ before, q.ackBy = none) (acknowledged : r.ackBy ≠ none) :
    f.makeRoom = { f with records := before ++ after } := by
  have found : r.ackBy.isSome = true := Option.isSome_iff_ne_none.2 acknowledged
  have some_found : f.records.any (fun q => q.ackBy.isSome) = true := by simp [records, found]
  have skipped : ∀ q ∈ before, ¬ q.ackBy.isSome = true := fun q hq => by simp [fresh q hq]
  rw [Flg.makeRoom, if_pos full, removeOldest, if_pos some_found, if_pos some_found, records,
    List.eraseP_append_right _ skipped, List.eraseP_cons_of_pos (by exact found)]

/-- Without one the oldest record goes and is counted lost. -/
theorem makeRoom_of_fresh {f : Flg} (full : 32 ≤ f.records.length) (fresh : ∀ q ∈ f.records, q.ackBy = none) :
    f.makeRoom = { f with records := f.records.drop 1, lost := if f.lost < 255 then f.lost + 1 else f.lost } := by
  have none_found : ¬ f.records.any (fun q => q.ackBy.isSome) = true := by
    simp only [List.any_eq_true, not_exists, not_and]
    exact fun q hq => by simp [fresh q hq]
  rw [Flg.makeRoom, if_pos full, removeOldest, if_neg none_found, if_neg none_found, satSucc]

/-! ### What a declaration writes (R91) -/

/-- A hold consequence writes the holds and, by its mask change, the store unit. -/
theorem holdConsequence_writes (c : Settings) (i : StringIdx) (k : Consequence) (s : State) :
    let t := holdConsequence c i k s
    t = { s with hld := { s.hld with strings := t.hld.strings }, nvs := t.nvs } := by
  unfold holdConsequence withMaskChange maskChange
  dsimp only
  split_ifs
  · rfl
  · split <;> rfl
  · rfl

/-- A declaration writes the log, the demands on their way, the holds and the store unit. -/
theorem declareFault_writes (c : Settings) (d : Declaration) (s : State) :
    let t := declareFault c d s
    t = { s with flg := t.flg, demands := t.demands, hld := { s.hld with strings := t.hld.strings }, nvs := t.nvs } := by
  have held := holdConsequence_writes c d.string d.consequence (recordFault d s)
  dsimp only at held ⊢
  unfold declareFault sendDemand
  split
  all_goals
    rw [held]
    rfl

/-- The log after a declaration that carries no isolation start, by how room was made for its record. -/
theorem flg_declareFault_of_room {c : Settings} {d : Declaration} {s : State} {room : List FaultRecord} {lost : Nat}
    (start : d.isolationStart = none) (made : s.flg.makeRoom = { s.flg with records := room, lost := lost }) :
    (declareFault c d s).flg =
      ⟨room ++ [recordOf d s.flg.nextSeq s.seconds s.nowMs], succSeq s.flg.nextSeq, lost⟩ := by
  rw [flg_declareFault, flg_recordFault_none start, Flg.append, made]

/-! ### Entry into ISOLATED and STUCK (R125, R127) -/

/-- The part once a string in PARTING has entered ISOLATED, before its close consideration. -/
def enterIsolated (i : StringIdx) (s : State) : State :=
  (s.setPath i { s.path i with state := .isolated, deadline := none }).withWac { s.wac with pathChanged := true }

theorem path_enterIsolated (i : StringIdx) (s : State) :
    (enterIsolated i s).path i = { s.path i with state := .isolated, deadline := none } := by
  rw [enterIsolated, State.withWac_path, State.path_setPath_self]

section
variable {c : Settings} {i : StringIdx} {s : State} {isolated : Ms}

theorem ofFailed_iff {start now : Ms} {seconds : Nat} {r : FaultRecord} :
    r.ofFailed i start now seconds = true ↔ r.string = i ∧ r.outcome = .isolated ∧
      r.declared.any (fun t => decide (since now t ≤ since now start)) = true ∧ (r.seconds = seconds ∨ r.seconds + 1 = seconds) := by
  unfold FaultRecord.ofFailed
  cases r.declared <;> simp [and_assoc]

/-- The record of a stuck switch is made first, and then the records of the isolation turn to ISOLATION_FAILED; its own already is. -/
theorem flg_enterStuck (began : (s.path i).isolationStart = some isolated) {room : List FaultRecord} {lost : Nat}
    (made : s.flg.makeRoom = { s.flg with records := room, lost := lost }) :
    (enterStuck c i s).flg =
      ⟨room.map (fun r => if r.string = i ∧ r.outcome = .isolated ∧
            r.declared.any (fun t => decide (since s.nowMs t ≤ since s.nowMs isolated)) = true ∧
            (r.seconds = s.seconds ∨ r.seconds + 1 = s.seconds) then { r with outcome := .isolationFailed } else r) ++
          [recordOf (stuckFault i s.sfe.currents[i] (some isolated)) s.flg.nextSeq s.seconds s.nowMs],
        succSeq s.flg.nextSeq, lost⟩ := by
  simp [enterStuck, recordFault, stuckFault, recordOf, began, Flg.append, made, Flg.failIsolation, ofFailed_iff]

/-- Besides the log: the string's path part and hold, and the line. -/
theorem enterStuck_writes (settings : s.settings = some c) (state : (s.path i).state = .confirming) :
    (enterStuck c i s).boxTrip = true ∧ (enterStuck c i s).demands = s.demands ∧
      (∀ j, (enterStuck c i s).path j = if j = i then { s.path i with state := .stuck, deadline := none } else s.path j) ∧
      ∀ j, (enterStuck c i s).hold j = if j = i ∧ c.strings[i].present = true
        then { (s.hold i).addLockout with suspect := true } else s.hold j := by
  refine ⟨by simp [enterStuck], by simp [enterStuck, demands_declareFault, stuckFault], fun j => ?_, fun j => ?_⟩
  · simp [enterStuck, path_changePath]
  · have present : s.present i = c.strings[i].present := present_of_settings settings i
    simp only [enterStuck, hold_declareFault, stuckFault, State.withBoxTrip_hold, hold_changePath, state]
    by_cases own : j = i
    · subst own
      simp [present, Hold.consequence, Hold.addLockout]
    · simp [own]

end

end Sys2Proof.Machine

namespace Sys2Proof.Proofs

open Sys2Proof Sys2Proof.Machine

/-- Settles O30: the rows of the table, by the string's presence. -/
theorem holdConsequencesFollowTheirTable : Obligations.HoldConsequencesFollowTheirTable := by
  intro c i s _
  refine ⟨fun absent k => holdConsequence_of_not_present absent, fun present => ?_⟩
  simp only [hold_holdConsequence, present, and_true, if_true]
  refine ⟨fun within => ?_, fun spent => ?_, rfl, rfl, rfl⟩
  · rw [Hold.consequence, if_pos within]
    rfl
  · rw [Hold.consequence, if_neg (Nat.not_lt.2 spent)]
    rfl

/-- Settles O31. -/
theorem declarationReachesLogHoldsAndSequencer : Obligations.DeclarationReachesLogHoldsAndSequencer := by
  intro c d s settings start
  have same : s.flg.records.length < 32 → s.flg.makeRoom = { s.flg with records := s.flg.records, lost := s.flg.lost } :=
    makeRoom_of_lt
  refine ⟨?_, fun short => ?_, fun before r after full records fresh acknowledged => ?_, fun r after full records fresh => ?_, ?_,
    fun j other => (declareFault_other other).2, fun quiet => ?_, fun n demand => ?_, declareFault_writes c d s⟩
  · simp [flg_declareFault, flg_recordFault_none start, Flg.append, succSeq]
  · rw [flg_declareFault_of_room start (same short)]
    exact ⟨rfl, rfl⟩
  · rw [flg_declareFault_of_room start (makeRoom_of_acknowledged full records fresh acknowledged)]
    exact ⟨rfl, rfl⟩
  · rw [flg_declareFault_of_room start (makeRoom_of_fresh full fresh), records]
    exact ⟨rfl, rfl⟩
  · rw [hold_declareFault, if_pos rfl, present_of_settings settings]
  · simp [demands_declareFault, quiet]
  · simp [demands_declareFault, demand]

/-- Settles O29: the path part by path state, and what the notices of the change add. -/
theorem openDemandsAndClosePermissionsActByPathState : Obligations.OpenDemandsAndClosePermissionsActByPathState := by
  refine ⟨?_, fun i s => ⟨closePermission_of_isolated, closePermission_of_not⟩⟩
  intro i reason n s low high
  dsimp only
  refine ⟨fun j other => ?_, fun state => ?_, fun state => ?_, fun state => ?_, fun state single more => ?_, fun state whole => ?_,
    fun state => ?_, fun state => ?_, fun state => ?_⟩
  · simp [path_openDemand, other]
  · simp [path_openDemand, Path.demanded, state, Path.beginOpening, rampDownSteps_full low high]
  · simp [path_openDemand, Path.demanded, state, Path.beginOpening, rampDownSteps, rampIncrement]
  · simp [path_openDemand, Path.demanded, state]
  · have demanded : (s.path i).demanded s.nowMs reason n = { s.path i with stepCount := some 1, stepsLeft := some 1 } := by
      simp [Path.demanded, state, single, more]
    rw [openDemand, demanded, changePath_of_eq (by exact rfl)]
  · exact openDemand_of_demanded_eq (demanded_eq (.inr (.inr (.inr (.inr ⟨state, whole⟩)))))
  · exact openDemand_of_demanded_eq (demanded_eq (by tauto))
  · rw [openDemand, pathChanged_changePath]
    rcases state with state | state | state <;> simp [Path.demanded, state, Path.beginOpening]
  · have leaves : (s.path i).state = .closed → ((s.path i).demanded s.nowMs reason n).state ≠ .closed := fun _ => demanded_state_closed
    rw [openDemand, changePath_from_closed state (leaves state)]
    simp

/-- Settles O32: the end of a hold, or the recheck of VOLTAGE_WAIT, and then the close consideration. -/
theorem timedHoldsEndAndVoltageIsCheckedAgain : Obligations.TimedHoldsEndAndVoltageIsCheckedAgain := by
  intro dt i start c d
  dsimp only
  generalize arrives : start.arrive dt = s
  intro settings due
  refine ⟨fun command h ended => ?_, fun recheck => ?_⟩
  · have run : exec command start = .next (considerClose i (s.setHold i h)) := by
      rcases ended with ⟨rfl, until', rfl⟩ | ⟨rfl, until', rfl⟩
      · exact exec_retryEnd_of_due arrives until' due
      · exact exec_startupEnd_of_due arrives until' due
    rw [run]
    refine ⟨fun stays => ?_, fun empty isolated present close => ?_, fun empty isolated present apart => ?_⟩
    · rw [considerClose_of_not]
      rcases stays with empty | state | absent
      · exact .inr (.inr (by simpa using empty))
      · exact .inr (.inl state)
      · refine .inl fun e same => ?_
        rw [State.setHold_settings, settings] at same
        cases same
        exact absent
    · rw [considerClose_of_voltageOk (s := s.setHold i h) settings present isolated (by simpa using empty) (voltageOk_iff.2 close)]
      rfl
    · rw [considerClose_of_not_voltageOk (s := s.setHold i h) settings present isolated (by simpa using empty)
        (Bool.eq_false_iff.2 fun ok => apart (voltageOk_iff.1 ok)), State.hold_setHold_self]
      rfl
  · rw [exec_voltageRecheck arrives settings, recheck]
    simp only [reachedOpt, due, true_and]
    have waits (alone : (s.hold i).lockout = false ∧ (s.hold i).manual = false ∧ (s.hold i).shutdown = false ∧
        (s.hold i).startupUntil = none ∧ (s.hold i).retryUntil = none) : (s.hold i).voltageWaitAlone = true := by
      obtain ⟨lockout, manual, shutdown, startup, retry⟩ := alone
      exact voltageWaitAlone_iff.2 ⟨lockout, manual, shutdown, startup, retry, by simp [recheck]⟩
    refine ⟨fun alone isolated close => ?_, fun alone isolated apart => ?_, fun other => if_neg ?_⟩
    · rw [if_pos ⟨waits alone, isolated⟩, recheckVoltage, if_pos (voltageOk_iff.2 close)]
      obtain ⟨lockout, manual, shutdown, startup, retry⟩ := alone
      rw [closePermission_of_isolated (s := s.setHold i _) isolated
        (by rw [State.hold_setHold_self]; exact hold_empty_iff.2 ⟨lockout, manual, shutdown, startup, retry, rfl⟩)]
      rfl
    · rw [if_pos ⟨waits alone, isolated⟩, recheckVoltage, if_neg fun ok => apart (voltageOk_iff.1 ok)]
    · rintro ⟨alone, isolated⟩
      obtain ⟨lockout, manual, shutdown, startup, retry, -⟩ := voltageWaitAlone_iff.1 alone
      exact other.elim (· ⟨lockout, manual, shutdown, startup, retry⟩) (· isolated)

/-- Settles O28: entry into ISOLATED, and the close consideration that it makes. -/
theorem partingDeadlineIsolates : Obligations.PartingDeadlineIsolates := by
  intro dt i start c d
  dsimp only
  generalize arrives : start.arrive dt = s
  intro settings state deadline due
  have enters : changePath i { s.path i with state := .isolated, deadline := none } s = enterIsolated i s :=
    changePath_of_ne (by simp [state]) (by simp [state]) (by simp)
  rw [exec_partingDeadline_of_due arrives (phaseDue_of state deadline due), enters]
  have isolated : ((enterIsolated i s).path i).state = .isolated := by rw [path_enterIsolated]
  refine ⟨fun stays => congrArg _ (considerClose_of_not ?_), fun empty present close => congrArg _ ?_,
    fun empty present apart => congrArg _ (considerClose_of_not_voltageOk (s := enterIsolated i s) settings present isolated empty
      (Bool.eq_false_iff.2 fun ok => apart (voltageOk_iff.1 ok)))⟩
  · rcases stays with held | absent
    · exact .inr (.inr held)
    · refine .inl fun e (same : s.settings = some e) => ?_
      rw [settings] at same
      cases same
      exact absent
  · rw [considerClose_of_voltageOk (s := enterIsolated i s) settings present isolated empty (voltageOk_iff.2 close), path_enterIsolated]
    rfl

/-- Settles O27: entry into STUCK with the line asserted, and the declaration of SWITCH_STUCK with the records of this isolation. -/
theorem confirmDeadlineFindsTheSwitchStuck : Obligations.ConfirmDeadlineFindsTheSwitchStuck := by
  intro dt i start c d isolated
  dsimp only
  generalize arrives : start.arrive dt = s
  intro settings state deadline began due
  refine ⟨_, exec_confirmDeadline_of_due arrives settings (phaseDue_of state deadline due), ?_⟩
  obtain ⟨boxTrip, demands, paths, holds⟩ := enterStuck_writes settings state
  have same : s.flg.records.length < 32 → s.flg.makeRoom = { s.flg with records := s.flg.records, lost := s.flg.lost } :=
    makeRoom_of_lt
  refine ⟨by simp [paths], boxTrip, fun j other => by simp [paths, holds, other], fun present => (holds i).trans (if_pos ⟨rfl, present⟩),
    demands, by simp [enterStuck], by simp [enterStuck], by simp [enterStuck], ?_, fun short => ?_,
    fun before r after full records fresh acknowledged => ?_, fun full fresh => ?_⟩
  · simp [enterStuck, recordFault, stuckFault, began, Flg.append, Flg.failIsolation]
  · rw [flg_enterStuck began (same short)]
    exact ⟨rfl, rfl⟩
  · rw [flg_enterStuck began (makeRoom_of_acknowledged full records fresh acknowledged)]
    exact ⟨rfl, rfl⟩
  · rw [flg_enterStuck began (makeRoom_of_fresh full fresh)]
    exact ⟨rfl, rfl⟩

end Sys2Proof.Proofs
end

section
/-! Proofs: requests (chapter 10): their checks, ISOLATE and RELEASE. -/

namespace Sys2Proof.Machine

/-! ### Two-byte fields -/

theorem byteOf_word16_high (hi lo : Byte) : byteOf (word16 hi lo / 256) = hi := by
  have := hi.isLt
  have := lo.isLt
  apply BitVec.eq_of_toNat_eq
  rw [byteOf, BitVec.toNat_ofNat, word16]
  omega

theorem byteOf_word16_low (hi lo : Byte) : byteOf (word16 hi lo) = lo := by
  have := lo.isLt
  apply BitVec.eq_of_toNat_eq
  rw [byteOf, BitVec.toNat_ofNat, word16]
  omega

/-- A two-byte argument comes back in a reply as the two bytes it came in. -/
theorem be16_word16 (hi lo : Byte) : be16 (word16 hi lo) = [hi, lo] := by
  rw [be16, byteOf_word16_high, byteOf_word16_low]

/-! ### The checks of a request (R164) -/

section
variable {kind : RequestKind} {act : Settings → Request → State → Served} {s : State}

theorem serve_of_nothing (h : s.settings = none ∨ s.requests = []) : serve kind act s = s := by
  unfold serve
  rcases h with none' | empty
  · rw [none']
  · rw [empty]
    split <;> simp_all

variable {c : Settings} {r : Request} {rest : List Request}

theorem serve_of_not_operator (settings : s.settings = some c) (requests : s.requests = r :: rest)
    (code : (r.body.getD 0 0).toNat = kind.code) (reserved : kind.operatorOnly = true)
    (foreign : ¬ (r.source ≠ 0 ∧ r.source ∈ c.operators)) :
    serve kind act s = offerReply r.source [r.body.getD 0 0, r.body.getD 1 0, 1] (s.withRequests rest) := by
  have refused : c.isOperator r.source = false := Bool.eq_false_iff.2 fun permitted => foreign (isOperator_iff.1 permitted)
  rw [serve_of_kind settings requests code, checkedServe, if_pos ⟨reserved, refused⟩]
  rfl

theorem requestLengthOk_iff {argLen : Nat} {body : List Byte} :
    requestLengthOk argLen body = true ↔ (body.getD 2 0).toNat = argLen ∧ body.length = 3 + argLen := by
  rw [requestLengthOk, Bool.and_eq_true, decide_eq_true_eq, decide_eq_true_eq]

theorem serve_of_not_sized (settings : s.settings = some c) (requests : s.requests = r :: rest)
    (code : (r.body.getD 0 0).toNat = kind.code) (permitted : kind.operatorOnly = false ∨ (r.source ≠ 0 ∧ r.source ∈ c.operators))
    (unsized : ¬ ((r.body.getD 2 0).toNat = kind.argLen ∧ r.body.length = 3 + kind.argLen)) :
    serve kind act s = offerReply r.source [r.body.getD 0 0, r.body.getD 1 0, 2] (s.withRequests rest) := by
  have passes : ¬ (kind.operatorOnly = true ∧ c.isOperator r.source = false) := by
    rintro ⟨reserved, refused⟩
    rcases permitted with open' | operator
    · simp [open'] at reserved
    · rw [isOperator_iff.2 operator] at refused
      cases refused
  rw [serve_of_kind settings requests code, checkedServe, if_neg passes, if_neg fun sized => unsized (requestLengthOk_iff.1 sized)]
  rfl

end

/-- A command that serves a request kind, given the body of one that passes the checks of R164: the reply carries what the kind's own
action answers. -/
theorem exec_of_served {command : Instr} {start s : State} {kind : RequestKind} {act : Settings → Request → State → Served}
    (run : exec command start = .next (serve kind act s)) {c : Settings} {rest : List Request} {source : Nat} {body : List Byte}
    (settings : s.settings = some c) (requests : s.requests = ⟨source, body⟩ :: rest) (code : (body.getD 0 0).toNat = kind.code)
    (permitted : kind.operatorOnly = false ∨ (source ≠ 0 ∧ source ∈ c.operators))
    (sized : requestLengthOk kind.argLen body = true) {v : Served} (served : act c ⟨source, body⟩ (s.withRequests rest) = v) :
    exec command start = .next (offerReply source ([body.getD 0 0, body.getD 1 0, v.result] ++ v.data) v.state) := by
  rw [run, serve_of_kind settings requests code, checkedServe_of_ok (permitted.imp_right isOperator_iff.2) sized, served]
  rfl

/-! ### ISOLATE (R145, R165) -/

/-- From `s` to `t` the paths, the window's marks, the holds and the store unit are written and nothing else. -/
def WritesStrings (s t : State) : Prop :=
  t = { s with paths := t.paths, wac := t.wac, hld := { s.hld with strings := t.hld.strings }, nvs := t.nvs }

namespace WritesStrings

variable {s t u : State}

theorem refl (s : State) : WritesStrings s s := rfl

theorem trans (h : WritesStrings s t) (k : WritesStrings t u) : WritesStrings s u := by
  unfold WritesStrings at h k ⊢
  rw [k, h]

theorem foldl {α : Type} {f : State → α → State} (h : ∀ t a, WritesStrings t (f t a)) (l : List α) (s : State) :
    WritesStrings s (l.foldl f s) :=
  List.foldlRecOn (motive := WritesStrings s) l f (refl s) fun t written a _ => written.trans (h t a)

theorem leaves (h : WritesStrings s t) :
    t.requests = s.requests ∧ t.abu = s.abu ∧ t.flg = s.flg ∧ t.acu = s.acu ∧ t.boxTrip = s.boxTrip ∧ t.settings = s.settings := by
  rw [h]
  exact ⟨rfl, rfl, rfl, rfl, rfl, rfl⟩

theorem setHold (i : StringIdx) (h : Hold) (s : State) : WritesStrings s (s.setHold i h) := rfl

theorem changePath (i : StringIdx) (p : Path) (s : State) : WritesStrings s (Machine.changePath i p s) := by
  unfold Machine.changePath notePathHold
  dsimp only
  split_ifs <;> rfl

theorem openDemand (i : StringIdx) (r : Reason) (n : Nat) (s : State) : WritesStrings s (Machine.openDemand i r n s) :=
  changePath ..

theorem considerClose (i : StringIdx) (s : State) : WritesStrings s (Machine.considerClose i s) := by
  unfold Machine.considerClose closePermission
  split
  · exact refl s
  · split_ifs
    · exact changePath ..
    · exact refl s
    · exact setHold ..
    · exact refl s

theorem withMaskChange {act : State → State} (h : WritesStrings s (act s)) : WritesStrings s (Machine.withMaskChange act s) := by
  unfold Machine.withMaskChange maskChange
  dsimp only
  split_ifs
  · exact h
  · split <;> exact h.trans rfl

theorem isolateStrings (c : Settings) (l : List StringIdx) (s : State) : WritesStrings s (Machine.isolateStrings c l s) :=
  (withMaskChange (foldl (fun _ i => setHold i _ _) l s)).trans (foldl (fun t i => openDemand i _ _ t) l _)

theorem releaseStrings (l : List StringIdx) (s : State) : WritesStrings s (Machine.releaseStrings l s) :=
  (withMaskChange (foldl (fun _ i => setHold i _ _) l s)).trans (foldl (fun t i => considerClose i t) l _)

end WritesStrings

theorem isolateOutcome_eq (s : State) (i : StringIdx) :
    isolateOutcome s i = if s.present i = false then (7 : Byte)
      else if (s.path i).state = .closed ∨ (s.path i).state = .making ∨ (s.path i).state = .closing then 1 else 2 := by
  unfold isolateOutcome
  cases s.present i
  · rfl
  · cases (s.path i).state <;> rfl

section
variable {c : Settings} {r : Request} {s : State}

theorem serveIsolate_of_bad (bad : r.word 0 = 0 ∨ 4096 ≤ r.word 0) : serveIsolate c r s = Served.refusal s resultBadArgument :=
  if_pos (bad.imp_right fun high => by simpa [maskOk] using high)

theorem serveIsolate_of_good (named : r.word 0 ≠ 0) (low : r.word 0 < 4096) :
    serveIsolate c r s = ⟨isolateStrings c ((maskStrings (r.word 0)).filter s.present) s, resultDone,
      be16 (r.word 0) ++ (maskStrings (r.word 0)).map (isolateOutcome s)⟩ :=
  if_neg (by simp [maskOk, named, low])

end

/-! ### RELEASE (R137, R146, R166, R167) -/

theorem releaseOutcome_eq (s : State) (i : StringIdx) :
    releaseOutcome s i = if s.present i = false then (7 : Byte)
      else if (s.path i).state = .stuck then 6
      else if (s.path i).state ≠ .isolated then 4
      else if ((s.flg.records.filter fun r => decide (r.string = i)).getLast?).any (fun r => r.ackBy.isNone) then 5
      else 3 := by
  unfold releaseOutcome Flg.newestUnacknowledged
  cases (s.flg.records.filter fun r => decide (r.string = i)).getLast? <;> rfl

theorem isolated_of_released {s : State} {i : StringIdx} (released : releaseOutcome s i = 3) : (s.path i).state = .isolated := by
  rw [releaseOutcome_eq] at released
  by_contra other
  split_ifs at released <;> exact absurd released (by decide)

theorem releaseStrings_nil (s : State) : releaseStrings [] s = s := by
  unfold releaseStrings
  simp only [List.foldl_nil]
  exact withMaskChange_of_eq (act := fun t => t) rfl rfl

/-- The releases come first, and with the flag the latch clear and the trip clear. -/
theorem releaseAction_eq (l : List StringIdx) (clearTrip : Bool) (s : State) :
    releaseAction l clearTrip s =
      if clearTrip = true then tripClear (clearLatch (releaseStrings l s)) else releaseStrings l s := by
  have same : (if l = [] then s else releaseStrings l s) = releaseStrings l s := by
    split
    case isTrue nothing => rw [nothing, releaseStrings_nil]
    case isFalse => rfl
  rw [releaseAction, same]

theorem releaseStrings_other {l : List StringIdx} {i : StringIdx} (s : State) (other : i ∉ l) :
    (releaseStrings l s).path i = s.path i ∧ (releaseStrings l s).hold i = s.hold i := by
  obtain ⟨path, hold⟩ := foldl_considerClose_other l
    (withMaskChange (fun t => l.foldl (fun u j => u.setHold j (u.hold j).released) t) s) i other
  have frame := foldl_setHold_frame Hold.released l s
  have held : (l.foldl (fun (u : State) j => u.setHold j (u.hold j).released) s).hold i = s.hold i :=
    List.foldlRecOn (motive := fun u : State => u.hold i = s.hold i) l _ rfl fun u same j mem => by
      rw [State.hold_setHold_ne _ _ (fun eq : i = j => other (eq ▸ mem)), same]
  dsimp only at frame
  unfold releaseStrings
  rw [path, hold]
  simp only [withMaskChange_frame]
  exact ⟨by rw [frame]; rfl, held⟩

/-- A hold set after a release is empty unless SHUTDOWN or STARTUP stands in it. -/
theorem released_empty_iff {h : Hold} : h.released.empty = true ↔ ¬ (h.shutdown = true ∨ h.startupUntil ≠ none) := by
  simp [hold_empty_iff, Hold.released]

theorem boxTrip_tripClear {s : State} (cleared : s.acu.latch = false) :
    (tripClear s).boxTrip = (s.boxTrip && (s.anyStuck || s.anySuspect)) := by
  unfold tripClear
  cases s.anyStuck <;> cases s.anySuspect <;> simp [cleared]

/-- The parts in which the latch clear and the trip clear leave the released strings. -/
theorem releaseAction_string (l : List StringIdx) (clearTrip : Bool) (s : State) :
    (∀ i, (releaseAction l clearTrip s).path i = (releaseStrings l s).path i ∧
        (releaseAction l clearTrip s).hold i = (releaseStrings l s).hold i) ∧
      (releaseAction l clearTrip s).wac = (releaseStrings l s).wac := by
  rw [releaseAction_eq]
  split <;> simp

/-- The line and the latch after a RELEASE, and what it leaves alone. -/
theorem releaseAction_trip (l : List StringIdx) (clearTrip : Bool) (s : State) :
    let u := releaseAction l clearTrip s
    (u.requests = s.requests ∧ u.abu = s.abu ∧ u.flg = s.flg) ∧ (clearTrip = false → u.acu = s.acu ∧ u.boxTrip = s.boxTrip) ∧
      (clearTrip = true → u.acu = { s.acu with latch := false } ∧ u.boxTrip = (s.boxTrip && (u.anyStuck || u.anySuspect))) := by
  obtain ⟨requests, bus, log, contest, line, -⟩ := (WritesStrings.releaseStrings l s).leaves
  rw [releaseAction_eq]
  cases clearTrip
  · exact ⟨⟨requests, bus, log⟩, fun _ => ⟨contest, line⟩, fun flag => by cases flag⟩
  · have stuck (t : State) : (tripClear t).anyStuck = t.anyStuck := by simp only [State.anyStuck, tripClear_frame]
    have suspect (t : State) : (tripClear t).anySuspect = t.anySuspect := by simp only [State.anySuspect, tripClear_frame]
    refine ⟨⟨?_, ?_, ?_⟩, fun flag => (by cases flag), fun _ => ⟨?_, ?_⟩⟩
    · simpa using requests
    · simpa using bus
    · simpa using log
    · simp [clearLatch, contest]
    · rw [if_pos rfl, stuck, suspect, boxTrip_tripClear rfl, ← line]
      rfl

section
variable {c : Settings} {r : Request} {s : State}

theorem serveRelease_of_bad (bad : 4096 ≤ r.word 0 ∨ 1 < r.byte 2 ∨ (r.word 0 = 0 ∧ r.byte 2 = 0)) :
    serveRelease c r s = Served.refusal s resultBadArgument :=
  if_pos (bad.imp_left fun high => by simpa [maskOk] using high)

theorem serveRelease_of_good (low : r.word 0 < 4096) (flag : r.byte 2 ≤ 1) (named : r.word 0 ≠ 0 ∨ r.byte 2 ≠ 0) :
    serveRelease c r s =
      let u := releaseAction ((maskStrings (r.word 0)).filter fun i => decide (releaseOutcome s i = 3)) (decide (r.byte 2 = 1)) s
      ⟨u, resultDone, be16 (r.word 0) ++ [flagByte u.boxTrip] ++ (maskStrings (r.word 0)).map (releaseOutcome s)⟩ :=
  if_neg (by
    rintro (high | beyond | ⟨none', zero⟩)
    · simp [maskOk, low] at high
    · omega
    · omega)

end

end Sys2Proof.Machine

namespace Sys2Proof.Proofs

open Sys2Proof Sys2Proof.Machine

/-- Settles O44: the seven commands are one command of seven kinds. -/
theorem requestsFailTheirChecksInOrder : Obligations.RequestsFailTheirChecksInOrder := by
  intro dt start command code argLen operatorOnly listed
  obtain ⟨act, run⟩ : ∃ act, exec command start = .next (serve ⟨code, argLen, operatorOnly⟩ act (start.arrive dt)) := by
    simp only [List.mem_cons, Prod.mk.injEq, List.not_mem_nil, or_false] at listed
    rcases listed with ⟨rfl, rfl, rfl, rfl⟩ | ⟨rfl, rfl, rfl, rfl⟩ | ⟨rfl, rfl, rfl, rfl⟩ | ⟨rfl, rfl, rfl, rfl⟩ |
      ⟨rfl, rfl, rfl, rfl⟩ | ⟨rfl, rfl, rfl, rfl⟩ | ⟨rfl, rfl, rfl, rfl⟩ <;> exact ⟨_, rfl⟩
  dsimp only
  rw [run]
  refine ⟨fun nothing => congrArg _ (serve_of_nothing nothing), fun c r rest settings requests => ⟨fun known reserved foreign => ?_,
    fun known permitted unsized => ?_, fun other => congrArg _ (serve_of_other_kind requests other)⟩⟩
  · exact congrArg _ (serve_of_not_operator settings requests known reserved foreign)
  · exact congrArg _ (serve_of_not_sized settings requests known permitted unsized)

/-- Settles O45. -/
theorem isolateHoldsAndOpensTheNamedStrings : Obligations.IsolateHoldsAndOpensTheNamedStrings := by
  intro dt start c rest source tag hi lo
  dsimp only
  generalize arrives : start.arrive dt = s
  intro settings requests nonzero listed
  have served {v : Served} := exec_of_served (command := .isolate dt) (start := start) (v := v) (kind := isolateKind) (act := serveIsolate)
    (by rw [← arrives]; rfl) settings requests rfl (.inr ⟨nonzero, listed⟩) rfl
  have word : Request.word ⟨source, [1, tag, 2, hi, lo]⟩ 0 = word16 hi lo := rfl
  refine ⟨fun bad => served (serveIsolate_of_bad bad), fun named low => ?_⟩
  obtain ⟨left, bus, log, contest, line, -⟩ :=
    (WritesStrings.isolateStrings c ((maskStrings (word16 hi lo)).filter s.present) (s.withRequests rest)).leaves
  refine ⟨isolateStrings c ((maskStrings (word16 hi lo)).filter s.present) (s.withRequests rest), left, bus, log, contest, line, ?_,
    fun i => ?_⟩
  · rw [served (serveIsolate_of_good named low), word, be16_word16]
    have outcomes : isolateOutcome (s.withRequests rest) = fun i => if c.strings[i].present = false then (7 : Byte)
        else if (s.path i).state = .closed ∨ (s.path i).state = .making ∨ (s.path i).state = .closing then 1 else 2 :=
      funext fun i => by rw [isolateOutcome_eq, State.withRequests_present, present_of_settings settings]; rfl
    rw [outcomes]
    rfl
  · have listed' : i ∈ (maskStrings (word16 hi lo)).filter s.present ↔
        i ∈ StringIdx.all.filter (fun i => (word16 hi lo).testBit i.val) ∧ c.strings[i].present = true := by
      rw [List.mem_filter, present_of_settings settings]
      rfl
    obtain ⟨path, hold⟩ := isolateStrings_string c _ ((nodup_maskStrings (word16 hi lo)).filter s.present) (s.withRequests rest) i
    rw [path, hold]
    refine ⟨fun other => ?_, fun named present => ?_⟩
    · have unlisted : i ∉ (maskStrings (word16 hi lo)).filter s.present := fun mem =>
        let ⟨a, b⟩ := listed'.1 mem
        other.elim (· a) fun absent => Bool.false_ne_true (absent.symm.trans b)
      simp [unlisted]
    · have mem := listed'.2 ⟨named, present⟩
      simp only [mem, if_true, true_and]
      refine ⟨rfl, ?_⟩
      split_ifs <;> exact ⟨rfl, rfl, rfl, rfl, rfl⟩

/-- Settles O46: the outcomes decide which strings are released, and each of these by its holds and the voltage check. -/
theorem releaseFollowsItsConditions : Obligations.ReleaseFollowsItsConditions := by
  intro dt start c rest source tag hi lo flag
  dsimp only
  generalize arrives : start.arrive dt = s
  intro settings requests nonzero listed
  have served {v : Served} := exec_of_served (command := .release dt) (start := start) (v := v) (kind := releaseKind) (act := serveRelease)
    (by rw [← arrives]; rfl) settings requests rfl (.inr ⟨nonzero, listed⟩) rfl
  have word : Request.word ⟨source, [2, tag, 3, hi, lo, flag]⟩ 0 = word16 hi lo := rfl
  have outcomes : releaseOutcome (s.withRequests rest) = fun i => if c.strings[i].present = false then (7 : Byte)
      else if (s.path i).state = .stuck then 6
      else if (s.path i).state ≠ .isolated then 4
      else if ((s.flg.records.filter fun r => decide (r.string = i)).getLast?).any (fun r => r.ackBy.isNone) then 5
      else 3 :=
    funext fun i => by rw [releaseOutcome_eq, State.withRequests_present, present_of_settings settings]; rfl
  refine ⟨fun bad => served (serveRelease_of_bad ?_), fun low flags some' => ?_⟩
  · refine bad.imp_right (Or.imp_right fun ⟨unnamed, unflagged⟩ => ⟨unnamed, ?_⟩)
    rw [unflagged]
    rfl
  · have flagged : flag.toNat ≤ 1 ∧ (word16 hi lo ≠ 0 ∨ flag.toNat ≠ 0) ∧ (flag = 1 ↔ flag.toNat = 1) := by
      rcases flags with rfl | rfl
      · exact ⟨by decide, some'.imp_right fun eq => absurd eq (by decide), by decide⟩
      · exact ⟨by decide, .inr (by decide), by decide⟩
    obtain ⟨bit, some'', one⟩ := flagged
    generalize picked : (maskStrings (word16 hi lo)).filter (fun i => decide (releaseOutcome (s.withRequests rest) i = 3)) = l
    have mem (i : StringIdx) : i ∈ l ↔ i ∈ StringIdx.all.filter (fun i => (word16 hi lo).testBit i.val) ∧
        releaseOutcome (s.withRequests rest) i = 3 := by
      rw [← picked, List.mem_filter, decide_eq_true_eq]
      rfl
    have nodup : l.Nodup := picked ▸ (nodup_maskStrings (word16 hi lo)).filter _
    obtain ⟨⟨left, bus, log⟩, unflagged, flagged⟩ := releaseAction_trip l (decide (flag.toNat = 1)) (s.withRequests rest)
    obtain ⟨strings, window⟩ := releaseAction_string l (decide (flag.toNat = 1)) (s.withRequests rest)
    refine ⟨releaseAction l (decide (flag.toNat = 1)) (s.withRequests rest), left, bus, log, ?_, fun zero => ?_, fun set => ?_,
      fun i => ?_⟩
    · rw [served (serveRelease_of_good low bit some'')]
      dsimp only
      rw [word, be16_word16, picked, outcomes]
      rfl
    · exact unflagged (by rw [zero]; rfl)
    · exact flagged (by rw [set]; rfl)
    · obtain ⟨path, hold⟩ := strings i
      rw [path, hold, window]
      have released : releaseOutcome (s.withRequests rest) i = _ := congrFun outcomes i
      refine ⟨fun other => releaseStrings_other (s.withRequests rest) fun listed' => ?_, fun named outcome => ?_⟩
      · obtain ⟨named, outcome⟩ := (mem i).1 listed'
        exact other.elim (· named) fun differs => differs (released.symm.trans outcome)
      · have outcome : releaseOutcome (s.withRequests rest) i = 3 := released.trans outcome
        have present : c.strings[i].present = true :=
          (present_of_settings (s := s.withRequests rest) settings i).symm.trans (present_of_released outcome)
        obtain ⟨held, passes, fails⟩ := releaseStrings_string (s := s.withRequests rest) nodup settings ((mem i).2 ⟨named, outcome⟩)
          present (isolated_of_released outcome)
        have empty : ((s.hold i).released.empty = true) ↔ _ := released_empty_iff
        refine ⟨fun holds => held (Bool.eq_false_iff.2 fun free => empty.1 free holds), fun free close => ?_, fun free apart => ?_⟩
        · exact passes (empty.2 free) (voltageOk_iff.2 close)
        · exact fails (empty.2 free) (Bool.eq_false_iff.2 fun ok => apart (voltageOk_iff.1 ok))

end Sys2Proof.Proofs
end

section
/-! Proofs: mask changes (R150). -/

namespace Sys2Proof.Machine

/-! ### The masks as views of the hold sets -/

theorem maskOf_eq_ofBits (f : StringIdx → Bool) : maskOf f = Nat.ofBits f := by
  have bit (b : Bool) (n : Nat) : (if b = true then n else 0) = n * b.toNat := by cases b <;> simp
  simp only [maskOf, StringIdx.all, bit, Nat.ofBits, Fin.foldr_succ, List.foldl_cons]
  simp
  omega

theorem testBit_maskOf (f : StringIdx → Bool) (i : StringIdx) : (maskOf f).testBit i.val = f i := by
  rw [maskOf_eq_ofBits, Nat.testBit_ofBits_lt _ _ i.isLt]

/-- From `s` to `t` neither the masks nor the store unit change, nor the time. -/
structure SameMasks (s t : State) : Prop where
  nvs : t.nvs = s.nvs
  now : t.nowMs = s.nowMs
  present : ∀ i, t.present i = s.present i
  lockout : ∀ i, (t.hold i).lockout = (s.hold i).lockout
  manual : ∀ i, (t.hold i).manual = (s.hold i).manual

section
variable {s t u : State}

theorem SameMasks.refl (s : State) : SameMasks s s := ⟨rfl, rfl, fun _ => rfl, fun _ => rfl, fun _ => rfl⟩

theorem SameMasks.trans (h : SameMasks s t) (k : SameMasks t u) : SameMasks s u where
  nvs := k.nvs.trans h.nvs
  now := k.now.trans h.now
  present i := (k.present i).trans (h.present i)
  lockout i := (k.lockout i).trans (h.lockout i)
  manual i := (k.manual i).trans (h.manual i)

theorem SameMasks.foldl {α : Type} {f : State → α → State} (h : ∀ t a, SameMasks t (f t a)) (l : List α) (s : State) :
    SameMasks s (l.foldl f s) :=
  List.foldlRecOn (motive := SameMasks s) l f (.refl s) fun t same a _ => same.trans (h t a)

theorem SameMasks.masks (h : SameMasks s t) : t.lockoutMask = s.lockoutMask ∧ t.manualMask = s.manualMask := by
  simp only [State.lockoutMask, State.manualMask, h.present, h.lockout, h.manual, and_self]

theorem sameMasks_changePath (i : StringIdx) (p : Path) (s : State) : SameMasks s (changePath i p s) := by
  have hold (j : StringIdx) := hold_changePath i j p s
  refine ⟨by simp, by simp, by simp, fun j => ?_, fun j => ?_⟩ <;>
    rw [hold] <;> split <;> simp_all

theorem sameMasks_considerClose (i : StringIdx) (s : State) : SameMasks s (considerClose i s) :=
  ⟨by simp, by simp, by simp, fun j => by rw [hold_considerClose], fun j => by rw [hold_considerClose]⟩

/-! ### Actions of the Hold manager and the mask change that they hand on -/

/-- What the store unit is after an action that turns `s` into `t`. -/
def MasksFollow (s t : State) : Prop :=
  (t.lockoutMask = s.lockoutMask → t.manualMask = s.manualMask → t.nvs = s.nvs) ∧
  (t.lockoutMask ≠ s.lockoutMask ∨ t.manualMask ≠ s.manualMask →
    (s.nvs.write = none → t.nvs = { s.nvs with
      store := Memory.erasePage s.nvs.store 2
      write := some ⟨.lockoutPage, 2, lockoutPageBytes t.lockoutMask t.manualMask, s.nowMs + ms 6, false⟩ }) ∧
    (s.nvs.write ≠ none → t.nvs = { s.nvs with pendingMask := true }))

theorem MasksFollow.after (h : MasksFollow s t) (same : SameMasks t u) : MasksFollow s u := by
  obtain ⟨lockout, manual⟩ := same.masks
  unfold MasksFollow
  rw [lockout, manual, same.nvs]
  exact h

theorem MasksFollow.before (same : SameMasks s t) (h : MasksFollow t u) : MasksFollow s u := by
  obtain ⟨lockout, manual⟩ := same.masks
  unfold MasksFollow at h ⊢
  rw [← lockout, ← manual, ← same.nvs, ← same.now]
  exact h

theorem SameMasks.follow (h : SameMasks s t) : MasksFollow s t := by
  obtain ⟨lockout, manual⟩ := h.masks
  exact ⟨fun _ _ => h.nvs, fun changed => by simp [lockout, manual] at changed⟩

/-- A mask change leaves the hold sets, and so the masks. -/
theorem masks_maskChange (s : State) : (maskChange s).lockoutMask = s.lockoutMask ∧ (maskChange s).manualMask = s.manualMask := by
  unfold maskChange
  split <;> exact ⟨rfl, rfl⟩

theorem masksFollow_withMaskChange {act : State → State} (nvs : (act s).nvs = s.nvs) (now : (act s).nowMs = s.nowMs) :
    MasksFollow s (withMaskChange act s) := by
  unfold withMaskChange
  dsimp only
  split
  case isTrue unchanged => exact ⟨fun _ _ => nvs, fun changed => by simp [unchanged] at changed⟩
  case isFalse changed =>
    obtain ⟨lockout, manual⟩ := masks_maskChange (act s)
    unfold MasksFollow
    rw [lockout, manual]
    refine ⟨fun l m => absurd ⟨l, m⟩ changed, fun _ => ⟨fun idle => ?_, fun writing => ?_⟩⟩
    · rw [maskChange, nvs, idle]
      simp only [beginLockoutWrite, beginWrite, State.withNvs_nvs, nvs, now]
      rfl
    · obtain ⟨w, writing⟩ := Option.ne_none_iff_exists'.1 writing
      rw [maskChange, nvs, writing]
      simp only [State.withNvs_nvs]

theorem masksFollow_holdConsequence (c : Settings) (i : StringIdx) (k : Consequence) (s : State) :
    MasksFollow s (holdConsequence c i k s) := by
  unfold holdConsequence
  split
  · exact masksFollow_withMaskChange rfl rfl
  · exact (SameMasks.refl s).follow

/-- Several hold parts written, in one action. -/
theorem masksFollow_foldl_setHold (f : Hold → Hold) (l : List StringIdx) (s : State) :
    MasksFollow s (withMaskChange (fun t => l.foldl (fun u i => u.setHold i (f (u.hold i))) t) s) := by
  refine masksFollow_withMaskChange ?_ ?_ <;> rw [foldl_setHold_frame f l s] <;> rfl

theorem masksFollow_isolateStrings (c : Settings) (l : List StringIdx) (s : State) : MasksFollow s (isolateStrings c l s) :=
  (masksFollow_foldl_setHold _ l s).after (.foldl (fun _ _ => sameMasks_changePath ..) l _)

theorem masksFollow_releaseStrings (l : List StringIdx) (s : State) : MasksFollow s (releaseStrings l s) :=
  (masksFollow_foldl_setHold _ l s).after (.foldl (fun t i => sameMasks_considerClose i t) l _)

theorem masksFollow_releaseAction (l : List StringIdx) (clearTrip : Bool) (s : State) :
    MasksFollow s (releaseAction l clearTrip s) := by
  rw [releaseAction_eq]
  split
  · exact (masksFollow_releaseStrings l s).after ⟨by simp, by simp, by simp, by simp, by simp⟩
  · exact masksFollow_releaseStrings l s

theorem masksFollow_declareFault (c : Settings) (d : Declaration) (s : State) : MasksFollow s (declareFault c d s) := by
  have logged : SameMasks s (recordFault d s) := ⟨by simp, by simp, by simp, by simp, by simp⟩
  have sent (t : State) : SameMasks t (sendDemand d t) := ⟨by simp, by simp, by simp, by simp, by simp⟩
  exact .before logged ((masksFollow_holdConsequence c d.string d.consequence _).after (sent _))

/-- A request whose own action follows the rule leaves its reply to the bus. -/
theorem masksFollow_serve (kind : RequestKind) {act : Settings → Request → State → Served}
    (h : ∀ (c : Settings) (r : Request) (u : State), MasksFollow u (act c r u).state) (s : State) :
    MasksFollow s (serve kind act s) := by
  unfold serve
  split
  case h_1 c r rest _ _ =>
    split
    case isFalse => exact (SameMasks.refl s).follow
    case isTrue =>
      have checked : MasksFollow (s.withRequests rest) (checkedServe kind act c r (s.withRequests rest)).state := by
        unfold checkedServe
        split_ifs
        · exact (SameMasks.refl _).follow
        · exact h c r _
        · exact (SameMasks.refl _).follow
      exact .before ⟨rfl, rfl, fun _ => rfl, fun _ => rfl, fun _ => rfl⟩
        (checked.after ⟨by simp, by simp, by simp, by simp, by simp⟩)
  case h_2 | h_3 => exact (SameMasks.refl s).follow

theorem masksFollow_serveIsolate (c : Settings) (r : Request) (u : State) : MasksFollow u (serveIsolate c r u).state := by
  unfold serveIsolate
  dsimp only
  split
  · exact (SameMasks.refl u).follow
  · exact masksFollow_isolateStrings ..

theorem masksFollow_serveRelease (c : Settings) (r : Request) (u : State) : MasksFollow u (serveRelease c r u).state := by
  unfold serveRelease
  dsimp only
  split
  · exact (SameMasks.refl u).follow
  · exact masksFollow_releaseAction ..

theorem masksFollow_enterStuck (c : Settings) (i : StringIdx) (s : State) : MasksFollow s (enterStuck c i s) :=
  .before ((sameMasks_changePath i _ s).trans ⟨rfl, rfl, fun _ => rfl, fun _ => rfl, fun _ => rfl⟩) (masksFollow_declareFault c _ _)

end

end Sys2Proof.Machine

namespace Sys2Proof.Proofs

open Sys2Proof Sys2Proof.Machine

/-- Settles O33. -/
theorem maskChangesWriteTheLockoutPage : Obligations.MaskChangesWriteTheLockoutPage := by
  refine ⟨fun s i => ⟨testBit_maskOf _ i, testBit_maskOf _ i⟩, masksFollow_holdConsequence, fun dt start i command listed => ?_⟩
  simp only [List.mem_cons, List.not_mem_nil, or_false] at listed
  rcases listed with rfl | rfl | rfl
  · exact ⟨_, rfl, masksFollow_serve _ masksFollow_serveIsolate _⟩
  · exact ⟨_, rfl, masksFollow_serve _ masksFollow_serveRelease _⟩
  · have idle : MasksFollow (start.arrive dt) (start.arrive dt) := (SameMasks.refl _).follow
    simp only [exec, execConfirmDeadline]
    split
    · exact ⟨_, rfl, idle⟩
    · split
      · exact ⟨_, rfl, masksFollow_enterStuck _ i _⟩
      · exact ⟨_, rfl, idle⟩

end Sys2Proof.Proofs
end

section
/-! Proofs: the layouts of reports and records (12.3) and the reads (R169 to R172). -/

namespace Sys2Proof.Machine

/-! ### Fields of one, two and four bytes -/

theorem toNat_byteOf (n : Nat) : (byteOf n).toNat = n % 256 := by rw [byteOf, BitVec.toNat_ofNat]

theorem toNat_byteOf_of_lt {n : Nat} (h : n < 256) : (byteOf n).toNat = n := by rw [toNat_byteOf, Nat.mod_eq_of_lt h]

/-- The value of the two bytes of a two-byte field. -/
theorem word_be16 {n : Nat} (h : n < 65536) : (byteOf (n / 256)).toNat * 256 + (byteOf n).toNat = n := by
  rw [toNat_byteOf, toNat_byteOf]
  omega

/-- The value of the two bytes of a signed field. -/
theorem word_signed16 (x : Int) :
    (byteOf ((BitVec.ofInt 16 x).toNat / 256)).toNat * 256 + (byteOf (BitVec.ofInt 16 x).toNat).toNat = (BitVec.ofInt 16 x).toNat :=
  word_be16 (BitVec.ofInt 16 x).isLt

theorem toInt_signed16 {x : Int} (low : -32768 ≤ x) (high : x ≤ 32767) :
    (BitVec.ofNat 16 (BitVec.ofInt 16 x).toNat).toInt = x := by
  rw [BitVec.ofNat_toNat, BitVec.setWidth_eq, BitVec.toInt_ofInt]
  exact Int.bmod_eq_of_le (by omega) (by omega)

/-- The value of the four bytes of a four-byte field. -/
theorem word_be32 {n : Nat} (h : n < 2 ^ 32) :
    ((byteOf (n / 16777216)).toNat * 256 + (byteOf (n / 65536)).toNat) * 65536 + ((byteOf (n / 256)).toNat * 256 + (byteOf n).toNat) = n := by
  simp only [toNat_byteOf]
  omega

/-! ### Records (R154, R160) -/

theorem cause_code_lt (c : Cause) : c.code < 16 := by cases c <;> decide

theorem outcome_code_lt (o : FaultOutcome) : o.code < 4 := by cases o <;> decide

/-- Byte 12: the outcome below the acknowledged bit. -/
theorem outcome_byte (r : FaultRecord) :
    (byteOf (r.outcome.code + 128 * r.ackBy.isSome.toNat)).toNat % 128 = r.outcome.code ∧
      ((byteOf (r.outcome.code + 128 * r.ackBy.isSome.toNat)).toNat / 128 = 1 ↔ r.ackBy ≠ none) := by
  cases r.outcome <;> cases r.ackBy <;> simp [toNat_byteOf, FaultOutcome.code]

theorem length_recordBytes (r : FaultRecord) : r.bytes.length = 14 := rfl

/-! ### String reports (R170) -/

theorem settingsReportBytes_of_present {c : Settings} {i : StringIdx} (suspect : Bool) (present : c.strings[i].present = true) :
    settingsReportBytes c suspect i =
      [byteOf (128 + 64 * (decide (c.strings[i].action = .reportOnly)).toNat + 32 * suspect.toNat + c.strings[i].group % 16),
        byteOf (c.strings[i].weight / 256), byteOf c.strings[i].weight] := by
  rw [settingsReportBytes]
  exact if_pos present

theorem settingsReportBytes_of_absent {c : Settings} {i : StringIdx} (suspect : Bool) (absent : c.strings[i].present = false) :
    settingsReportBytes c suspect i = [byteOf (32 * suspect.toNat), 0, 0] := by
  rw [settingsReportBytes]
  exact if_neg (by rw [absent]; decide)

/-- Bytes 0 to 2 of a string report are three. -/
theorem settingsReportBytes_three (c : Settings) (suspect : Bool) (i : StringIdx) :
    ∃ x y z, settingsReportBytes c suspect i = [x, y, z] := by
  cases present : c.strings[i].present
  · exact ⟨_, _, _, settingsReportBytes_of_absent suspect present⟩
  · exact ⟨_, _, _, settingsReportBytes_of_present suspect present⟩

/-- Bytes 16 to 18 are three. -/
theorem groupReportBytes_three (reported : Bool) (g : GroupRecord) : ∃ x y z, groupReportBytes reported g = [x, y, z] := by
  unfold groupReportBytes
  cases reported
  · exact ⟨_, _, _, rfl⟩
  · cases g.reference <;> exact ⟨_, _, _, rfl⟩

/-- A string report with its two groups of three bytes written out. -/
theorem stringReport_eq {c : Settings} {s : State} {i : StringIdx} {x y z u v w : Byte}
    (settings : settingsReportBytes c (s.hold i).suspect i = [x, y, z])
    (group : groupReportBytes (s.reportsGroup c i) (s.rfu.asked c.strings[i].group) = [u, v, w]) :
    stringReport c s i =
      [x, y, z] ++ (signed16 s.sfe.currents[i] ++ be16 s.sfe.voltages[i] ++ be16 s.sfe.shares[i] ++ signed16 s.wac.means[i] ++
          signed16 s.rfu.strings[i].normalized) ++
        [byteOf (verdictCode s.rfu.strings[i].verdict + 128 * (s.adjOf i).watch.toNat)] ++
        signed16 (s.rfu.strings[i].deviation.getD 0) ++ [u, v, w] ++
        [byteOf ((s.adjOf i).strikes + 32 * (s.hold i).retryCount),
          byteOf (16 * (s.path i).state.code +
            (if (s.path i).state = .closed then 0 else ((s.path i).reason.map Reason.code).getD 0)),
          byteOf (s.path i).level, byteOf (s.hold i).bits] := by
  rw [← settings, ← group]
  simp only [stringReport, List.append_assoc]

/-- The single bytes of a string report. -/
theorem getD_stringReport {c : Settings} {s : State} {i : StringIdx} {x y z u v w : Byte}
    (settings : settingsReportBytes c (s.hold i).suspect i = [x, y, z])
    (group : groupReportBytes (s.reportsGroup c i) (s.rfu.asked c.strings[i].group) = [u, v, w]) :
    let l := stringReport c s i
    (l.getD 0 0 = x ∧ l.getD 1 0 = y ∧ l.getD 2 0 = z) ∧
      l.getD 13 0 = byteOf (verdictCode s.rfu.strings[i].verdict + 128 * (s.adjOf i).watch.toNat) ∧
      (l.getD 16 0 = u ∧ l.getD 17 0 = v ∧ l.getD 18 0 = w ∧ (l.drop 16).take 2 = [u, v]) ∧
      l.getD 19 0 = byteOf ((s.adjOf i).strikes + 32 * (s.hold i).retryCount) ∧
      l.getD 20 0 = byteOf (16 * (s.path i).state.code +
        (if (s.path i).state = .closed then 0 else ((s.path i).reason.map Reason.code).getD 0)) ∧
      l.getD 21 0 = byteOf (s.path i).level ∧ l.getD 22 0 = byteOf (s.hold i).bits := by
  rw [stringReport_eq settings group]
  exact ⟨⟨rfl, rfl, rfl⟩, rfl, ⟨rfl, rfl, rfl, rfl⟩, rfl, rfl, rfl, rfl⟩

/-- The values of several bytes that stand one after another in a string report. -/
theorem slices_stringReport (c : Settings) (s : State) (i : StringIdx) :
    ((stringReport c s i).drop 3).take 10 = signed16 s.sfe.currents[i] ++ be16 s.sfe.voltages[i] ++ be16 s.sfe.shares[i] ++
        signed16 s.wac.means[i] ++ signed16 s.rfu.strings[i].normalized ∧
      ((stringReport c s i).drop 14).take 2 = signed16 (s.rfu.strings[i].deviation.getD 0) := by
  obtain ⟨x, y, z, settings⟩ := settingsReportBytes_three c (s.hold i).suspect i
  obtain ⟨u, v, w, group⟩ := groupReportBytes_three (s.reportsGroup c i) (s.rfu.asked c.strings[i].group)
  rw [stringReport_eq settings group]
  exact ⟨rfl, rfl⟩

theorem length_stringReport (c : Settings) (s : State) (i : StringIdx) : (stringReport c s i).length = 23 := by
  obtain ⟨x, y, z, settings⟩ := settingsReportBytes_three c (s.hold i).suspect i
  obtain ⟨u, v, w, group⟩ := groupReportBytes_three (s.reportsGroup c i) (s.rfu.asked c.strings[i].group)
  rw [stringReport_eq settings group]
  rfl

/-- Byte 0 of a present string: the flags above the group. -/
theorem flags_of_present (report suspect : Bool) (group : Nat) :
    let b := (byteOf (128 + 64 * report.toNat + 32 * suspect.toNat + group % 16)).toNat
    b.testBit 7 = true ∧ b.testBit 6 = report ∧ b.testBit 5 = suspect ∧ b.testBit 4 = false ∧ b % 16 = group % 16 := by
  have low := Nat.mod_lt group (show 0 < 16 by decide)
  generalize group % 16 = g at low
  revert report suspect g
  have all : ∀ (report suspect : Bool) (g : Fin 16),
      let b := (byteOf (128 + 64 * report.toNat + 32 * suspect.toNat + g.val)).toNat
      b.testBit 7 = true ∧ b.testBit 6 = report ∧ b.testBit 5 = suspect ∧ b.testBit 4 = false ∧ b % 16 = g.val := by decide
  exact fun report suspect g low => all report suspect ⟨g, low⟩

theorem flags_of_absent (suspect : Bool) :
    let b := (byteOf (32 * suspect.toNat)).toNat
    b.testBit 7 = false ∧ b.testBit 6 = false ∧ b.testBit 5 = suspect ∧ b.testBit 4 = false ∧ b % 16 = 0 := by
  cases suspect <;> decide

/-- Byte 13: the verdict below the standing. -/
theorem verdict_byte (v : Option Verdict) (watch : Bool) :
    (byteOf (verdictCode v + 128 * watch.toNat)).toNat % 8 = verdictCode v ∧
      (byteOf (verdictCode v + 128 * watch.toNat)).toNat.testBit 7 = watch := by
  rcases v with _ | v
  · cases watch <;> decide
  · cases v <;> cases watch <;> decide

/-- Byte 22: one bit for each hold. -/
theorem holds_byte (h : Hold) :
    let b := (byteOf h.bits).toNat
    b.testBit 0 = h.lockout ∧ b.testBit 1 = h.manual ∧ b.testBit 2 = h.shutdown ∧ b.testBit 3 = h.startupUntil.isSome ∧
      b.testBit 4 = h.retryUntil.isSome ∧ b.testBit 5 = h.voltageRecheck.isSome := by
  unfold Hold.bits
  generalize h.lockout = a, h.manual = b, h.shutdown = c, h.startupUntil.isSome = d, h.retryUntil.isSome = e,
    h.voltageRecheck.isSome = f
  revert a b c d e f
  decide

/-- The present flag, the suspect flag and the bit without a meaning. -/
theorem flags_settingsReportBytes {c : Settings} {suspect : Bool} {i : StringIdx} {x y z : Byte}
    (settings : settingsReportBytes c suspect i = [x, y, z]) :
    x.toNat.testBit 7 = c.strings[i].present ∧ x.toNat.testBit 5 = suspect ∧ x.toNat.testBit 4 = false := by
  cases present : c.strings[i].present
  · rw [settingsReportBytes_of_absent suspect present] at settings
    obtain ⟨bit7, -, bit5, bit4, -⟩ := flags_of_absent suspect
    injection settings with first
    exact first ▸ ⟨bit7, bit5, bit4⟩
  · rw [settingsReportBytes_of_present suspect present] at settings
    obtain ⟨bit7, -, bit5, bit4, -⟩ := flags_of_present (decide (c.strings[i].action = .reportOnly)) suspect c.strings[i].group
    injection settings with first
    exact first ▸ ⟨bit7, bit5, bit4⟩

theorem reason_code_lt (reason : Option Reason) : (reason.map Reason.code).getD 0 < 16 := by
  rcases reason with _ | r
  · decide
  · cases r with
    | fault cause => exact cause_code_lt cause
    | manual | shutdown | startup => decide

theorem state_code_lt (p : PathState) : p.code < 8 := by cases p <;> decide

theorem recordOf_of_lt (r : Rfu) {group : Nat} (h : group < 8) : r.recordOf group = r.groups[group] := by
  rw [Rfu.recordOf, List.getD_eq_getElem _ _ (by simpa using h), Vector.getElem_toList]

theorem recordOf_of_ge (r : Rfu) {group : Nat} (h : 8 ≤ group) : r.recordOf group = none := by
  rw [Rfu.recordOf, List.getD_eq_default _ _ (by simpa using h)]

/-- A string without a group record, or not present, reports 0 and 0xFF. -/
theorem group_of_unreported {c : Settings} {s : State} {i : StringIdx}
    (h : c.strings[i].present = false ∨ s.rfu.recordOf c.strings[i].group = none) : s.reportsGroup c i = false := by
  rw [State.reportsGroup]
  rcases h with absent | none'
  · rw [absent, Bool.false_and]
  · rw [none', Option.isSome_none, Bool.and_false]

end Sys2Proof.Machine

namespace Sys2Proof.Proofs

open Sys2Proof Sys2Proof.Machine

/-- Settles O49: field by field, from the lists of bytes as 12.3 writes them. -/
theorem reportsAndRecordsFollowTheirLayouts : Obligations.ReportsAndRecordsFollowTheirLayouts := by
  refine ⟨fun r seq seconds low high low' high' contributors station => ?_, fun c s i => ?_⟩
  · have string := r.string.isLt
    have cause := cause_code_lt r.cause
    have outcome := outcome_code_lt r.outcome
    refine ⟨rfl, word_be16 (by omega), ?_, ?_, word_be32 seconds, ?_, ?_, toNat_byteOf_of_lt (by omega), ?_, ?_,
      toNat_byteOf_of_lt (by omega)⟩
    · have value : (byteOf (16 * (r.string.val + 1) + r.cause.code)).toNat = _ := toNat_byteOf_of_lt (by omega)
      exact (congrArg (· / 16) value).trans (by omega)
    · have value : (byteOf (16 * (r.string.val + 1) + r.cause.code)).toNat = _ := toNat_byteOf_of_lt (by omega)
      exact (congrArg (· % 16) value).trans (by omega)
    · exact (congrArg (fun n => (BitVec.ofNat 16 n).toInt) (word_signed16 r.detail)).trans (toInt_signed16 low high)
    · exact (congrArg (fun n => (BitVec.ofNat 16 n).toInt) (word_signed16 (r.reference.getD 0))).trans (toInt_signed16 low' high')
    · exact (outcome_byte r).1
    · exact (outcome_byte r).2
  · obtain ⟨x, y, z, settings⟩ := settingsReportBytes_three c (s.hold i).suspect i
    obtain ⟨u, v, w, group⟩ := groupReportBytes_three (s.reportsGroup c i) (s.rfu.asked c.strings[i].group)
    have unreported (h : c.strings[i].present = false ∨ s.rfu.recordOf c.strings[i].group = none) : [u, v, w] = [0, 0, 0xFF] := by
      rw [← group, group_of_unreported h]
      rfl
    have state := state_code_lt (s.path i).state
    have reason : (if (s.path i).state = .closed then 0 else ((s.path i).reason.map Reason.code).getD 0) < 16 := by
      split
      · decide
      · exact reason_code_lt _
    have path : (byteOf (16 * (s.path i).state.code +
        (if (s.path i).state = .closed then 0 else ((s.path i).reason.map Reason.code).getD 0))).toNat = _ :=
      toNat_byteOf_of_lt (by omega)
    obtain ⟨lockout, manual, shutdown, startup, retry, recheck⟩ := holds_byte (s.hold i)
    obtain ⟨verdict, watch⟩ := verdict_byte s.rfu.strings[i].verdict (s.adjOf i).watch
    obtain ⟨bit7, bit5, bit4⟩ := flags_settingsReportBytes settings
    obtain ⟨⟨b0, b1, b2⟩, b13, ⟨b16, b17, b18, b1617⟩, b19, b20, b21, b22⟩ := getD_stringReport settings group
    obtain ⟨values, deviation⟩ := slices_stringReport c s i
    simp only [b0, b1, b2, b13, b16, b17, b18, b19, b20, b21, b22, b1617, path]
    refine ⟨length_stringReport c s i, bit7, bit5, bit4, fun present groups weight => ?_, fun absent => ?_, values, ?_, ?_, deviation,
      fun other => ?_, fun low none' => ?_, fun low record present some' contributors => ?_, fun strikes retries => ?_, by omega, by omega,
      fun full => toNat_byteOf_of_lt (by omega), lockout, manual, shutdown, startup, retry, recheck⟩
    · rw [settingsReportBytes_of_present _ present] at settings
      obtain ⟨-, bit6, -, -, low⟩ :=
        flags_of_present (decide (c.strings[i].action = .reportOnly)) (s.hold i).suspect c.strings[i].group
      cases settings
      exact ⟨bit6, low.trans (Nat.mod_eq_of_lt (by omega)), word_be16 (by omega)⟩
    · rw [settingsReportBytes_of_absent _ absent] at settings
      obtain ⟨-, bit6, -, -, low⟩ := flags_of_absent (s.hold i).suspect
      cases settings
      exact ⟨bit6, low, rfl⟩
    · rw [verdict]
      cases s.rfu.strings[i].verdict <;> rfl
    · rw [watch]
      exact decide_eq_true_iff
    · cases unreported (other.imp_right fun none' => recordOf_of_ge _ none')
      exact ⟨rfl, rfl⟩
    · cases unreported (.inr ((recordOf_of_lt _ low).trans none'))
      exact ⟨rfl, rfl⟩
    · have found : s.rfu.recordOf c.strings[i].group = some record := (recordOf_of_lt _ low).trans some'
      have reported : s.reportsGroup c i = true := by rw [State.reportsGroup, present, found]; rfl
      have asked : s.rfu.asked c.strings[i].group = record := by rw [Rfu.asked, found]; rfl
      rw [reported, asked] at group
      cases reference : record.reference with
      | none =>
        simp only [groupReportBytes, reference, if_true] at group
        cases group
        refine ⟨toNat_byteOf_of_lt (by omega), fun _ => rfl, fun _ differs => ?_⟩
        cases differs
      | some value =>
        simp only [groupReportBytes, reference, if_true] at group
        cases group
        refine ⟨toNat_byteOf_of_lt (by omega), fun differs => ?_, fun _ same => ?_⟩
        · cases differs
        · cases same
          rfl
    · rw [toNat_byteOf_of_lt (by omega)]
      omega

end Sys2Proof.Proofs
end

section
/-! Proofs: the reads (R169 to R172). -/

namespace Sys2Proof.Machine

theorem byteOf_toNat (b : Byte) : byteOf b.toNat = b := by rw [byteOf, BitVec.ofNat_toNat, BitVec.setWidth_eq]

/-! ### READ_STATUS -/

theorem fresh_eq (c : Settings) (now : Ms) (e : PeerEntry) :
    e.fresh c now = e.lastDigest.any fun d => decide (since now d ≤ 2 * (64 * c.sampleInterval)) := by
  unfold PeerEntry.fresh
  cases e.lastDigest <;> rfl

/-- The status block byte by byte. -/
theorem statusBlock_eq (c : Settings) (s : State) :
    statusBlock c s = [1, byteOf (s.countIn .closed), byteOf (s.countIn .opening), byteOf (s.countIn .confirming),
      byteOf (s.countIn .parting), byteOf (s.countIn .isolated), byteOf (s.countIn .making), byteOf (s.countIn .closing),
      byteOf (s.countIn .stuck), flagByte s.boxTrip, flagByte s.acu.latch, flagByte s.indicator, byteOf s.flg.lost,
      flagByte s.hld.input, flagByte s.hld.pageLost, flagByte s.wac.boxValid, byteOf s.ptb.entries.length,
      byteOf (s.ptb.entries.filter fun e => e.lastDigest.any fun d => decide (since s.nowMs d ≤ 2 * (64 * c.sampleInterval))).length,
      byteOf (s.ptb.entries.filter fun e => decide (e.feeder = c.feeder)).length] ++
      be16 s.ptb.overflow ++ [byteOf s.nvs.lastReset.code] ++ signed16 s.sfe.total ++ be16 s.sfe.bus ++ be16 s.sfe.score := by
  rw [← funext (fresh_eq c s.nowMs)]
  rfl

/-! ### READ_STRINGS -/

/-- A piece of a list of pieces of one length. -/
theorem flatten_piece {α β : Type} {f : α → List β} {n : Nat} (length : ∀ a, (f a).length = n) {l : List α} {k : Nat} {a : α}
    (found : l[k]? = some a) : (((l.map f).flatten).drop (n * k)).take n = f a := by
  induction l generalizing k with
  | nil => cases found
  | cons b l ih =>
    rw [List.map_cons, List.flatten_cons]
    cases k with
    | zero =>
      cases found
      rw [Nat.mul_zero, List.drop_zero, List.take_append_of_le_length (le_of_eq (length a).symm),
        List.take_of_length_le (le_of_eq (length a))]
    | succ k =>
      rw [Nat.mul_succ, Nat.add_comm, ← List.drop_drop, List.drop_append_of_le_length (le_of_eq (length b).symm),
        List.drop_of_length_le (le_of_eq (length b)), List.nil_append]
      exact ih found

theorem length_flatten_pieces {α β : Type} {f : α → List β} {n : Nat} (length : ∀ a, (f a).length = n) (l : List α) :
    ((l.map f).flatten).length = n * l.length := by
  induction l with
  | nil => rfl
  | cons b l ih =>
    rw [List.map_cons, List.flatten_cons, List.length_append, ih, length b, List.length_cons, Nat.mul_succ, Nat.add_comm]

theorem getElem?_all (i : StringIdx) : StringIdx.all[i.val]? = some i := by revert i; decide

theorem length_stringsFrom {first count : Nat} (low : 1 ≤ first) (high : first + count ≤ 13) : (stringsFrom first count).length = count := by
  have twelve : StringIdx.all.length = 12 := rfl
  rw [stringsFrom, List.length_take, List.length_drop, twelve]
  omega

theorem getElem?_stringsFrom {first count : Nat} {i : StringIdx} (low : 1 ≤ first) (from' : first ≤ i.val + 1)
    (to' : i.val + 1 < first + count) : (stringsFrom first count)[i.val + 1 - first]? = some i := by
  rw [stringsFrom, List.getElem?_take_of_lt (by omega), List.getElem?_drop, show first - 1 + (i.val + 1 - first) = i.val by omega,
    getElem?_all]

section
variable {c : Settings} {r : Request} {s : State}

theorem serveReadStrings_of_bad
    (bad : r.byte 0 = 0 ∨ 12 < r.byte 0 ∨ r.byte 1 = 0 ∨ 5 < r.byte 1 ∨ 13 < r.byte 0 + r.byte 1) :
    serveReadStrings c r s = Served.refusal s resultBadArgument :=
  if_pos (by simp only [Bool.eq_false_iff, ne_eq, inRange_iff]; omega)

theorem serveReadStrings_of_good (low : 1 ≤ r.byte 0) (some' : 1 ≤ r.byte 1) (few : r.byte 1 ≤ 5) (high : r.byte 0 + r.byte 1 ≤ 13) :
    serveReadStrings c r s = ⟨s, resultDone, [byteOf (r.byte 0), byteOf (r.byte 1)] ++
      ((stringsFrom (r.byte 0) (r.byte 1)).map (stringReport c s)).flatten⟩ :=
  if_neg (by simp only [Bool.eq_false_iff, ne_eq, inRange_iff]; omega)

/-! ### READ_LOG -/

theorem serveReadLog_of_bad (bad : r.byte 2 = 0 ∨ 8 < r.byte 2) : serveReadLog c r s = Served.refusal s resultBadArgument :=
  if_pos (by simp only [Bool.eq_false_iff, ne_eq, inRange_iff]; omega)

theorem serveReadLog_of_absent (some' : 1 ≤ r.byte 2) (few : r.byte 2 ≤ 8) (read : s.flg.readFrom (r.word 0) (r.byte 2) = none) :
    serveReadLog c r s = Served.refusal s resultStaleSequence := by
  rw [serveReadLog, read]
  exact if_neg (by simp only [Bool.eq_false_iff, ne_eq, inRange_iff]; omega)

theorem serveReadLog_of_found (some' : 1 ≤ r.byte 2) (few : r.byte 2 ≤ 8) {l : List FaultRecord}
    (read : s.flg.readFrom (r.word 0) (r.byte 2) = some l) :
    serveReadLog c r s = ⟨s, resultDone, byteOf l.length :: (l.map FaultRecord.bytes).flatten⟩ := by
  rw [serveReadLog, read]
  exact if_neg (by simp only [Bool.eq_false_iff, ne_eq, inRange_iff]; omega)

end

theorem readFrom_of_absent {f : Flg} {first : Nat} (count : Nat) (numbered : first ≠ 0) (absent : ∀ r ∈ f.records, r.seq ≠ first) :
    f.readFrom first count = none := by
  have unknown : ¬ f.has first = true := fun known =>
    let ⟨r, listed, same⟩ := flg_has_iff.1 known
    absent r listed same
  rw [Flg.readFrom, if_neg numbered, if_neg unknown]

/-- The records from the oldest, or from a number that stands in the log. -/
theorem readFrom_of_split {f : Flg} {first count : Nat} {before after : List FaultRecord} (records : f.records = before ++ after)
    (starts : (first = 0 ∧ before = []) ∨
      (first ≠ 0 ∧ after.head?.map FaultRecord.seq = some first ∧ ∀ r ∈ before, r.seq ≠ first)) :
    f.readFrom first count = some (after.take count) := by
  rcases starts with ⟨rfl, rfl⟩ | ⟨numbered, head, earlier⟩
  · rw [Flg.readFrom, if_pos rfl, records, List.nil_append]
  · have known : f.has first = true := by
      obtain ⟨r, found, same⟩ := Option.map_eq_some_iff.1 head
      exact flg_has_iff.2 ⟨r, records ▸ List.mem_append_right _ (List.mem_of_head? found), same⟩
    rw [Flg.readFrom, if_neg numbered, if_pos known, records, dropWhile_seq earlier head]

/-! ### The commands, on a request that passes the checks of R164 -/

section
variable {dt : Nat} {start s : State} {c : Settings} {rest : List Request} {source : Nat} {tag : Byte} {v : Served}
variable (arrives : start.arrive dt = s) (settings : s.settings = some c)
include arrives settings

theorem exec_readStatus_of_request (requests : s.requests = ⟨source, [4, tag, 0]⟩ :: rest) :
    exec (.readStatus dt) start = .next (offerReply source ([4, tag, 0] ++ statusBlock c s) (s.withRequests rest)) :=
  exec_of_served (kind := readStatusKind) (act := serveReadStatus) (by rw [← arrives]; rfl) settings requests rfl (.inl rfl) rfl rfl

theorem exec_readStrings_of_request {first count : Byte} (requests : s.requests = ⟨source, [5, tag, 2, first, count]⟩ :: rest)
    (served : serveReadStrings c ⟨source, [5, tag, 2, first, count]⟩ (s.withRequests rest) = v) :
    exec (.readStrings dt) start = .next (offerReply source ([5, tag, v.result] ++ v.data) v.state) :=
  exec_of_served (kind := readStringsKind) (act := serveReadStrings) (by rw [← arrives]; rfl) settings requests rfl (.inl rfl) rfl served

theorem exec_readLog_of_request {hi lo count : Byte} (requests : s.requests = ⟨source, [6, tag, 3, hi, lo, count]⟩ :: rest)
    (served : serveReadLog c ⟨source, [6, tag, 3, hi, lo, count]⟩ (s.withRequests rest) = v) :
    exec (.readLog dt) start = .next (offerReply source ([6, tag, v.result] ++ v.data) v.state) :=
  exec_of_served (kind := readLogKind) (act := serveReadLog) (by rw [← arrives]; rfl) settings requests rfl (.inl rfl) rfl served

theorem exec_readTally_of_request (requests : s.requests = ⟨source, [7, tag, 0]⟩ :: rest) :
    exec (.readTally dt) start = .next (offerReply source ([7, tag, 0] ++ s.abu.tally.bytes)
      ((s.withRequests rest).withAbu { s.abu with tally := Tally.zero })) :=
  exec_of_served (kind := readTallyKind) (act := serveReadTally) (by rw [← arrives]; rfl) settings requests rfl (.inl rfl) rfl rfl

end

end Sys2Proof.Machine

namespace Sys2Proof.Proofs

open Sys2Proof Sys2Proof.Machine

/-- Settles O48: each read by its own action, on a request that passes the checks. -/
theorem readsReportTheStateAsItStands : Obligations.ReadsReportTheStateAsItStands := by
  intro dt start c rest source tag
  dsimp only
  generalize arrives : start.arrive dt = s
  intro settings
  have zero (b : Byte) (h : b = 0) : b.toNat = 0 := by rw [h]; rfl
  refine ⟨fun requests => ?_, fun first count requests => ?_, fun hi lo count requests => ?_, fun requests => ?_⟩
  · refine ⟨statusBlock c s, exec_readStatus_of_request arrives settings requests, ?_⟩
    rw [statusBlock_eq]
    refine ⟨rfl, rfl, fun k => ?_, rfl, rfl, rfl, rfl, rfl, rfl, rfl, rfl, rfl, rfl, rfl, rfl, rfl, rfl, rfl⟩
    fin_cases k <;> rfl
  · have served {v : Served} := exec_readStrings_of_request (v := v) arrives settings requests
    refine ⟨fun low some' few high => ⟨((stringsFrom first.toNat count.toNat).map (stringReport c s)).flatten, ?_, ?_,
      fun i from' to' => ?_⟩, fun bad => served (serveReadStrings_of_bad (bad.imp (zero first) (Or.imp_right (Or.imp_left (zero count)))))⟩
    · have good : serveReadStrings c ⟨source, [5, tag, 2, first, count]⟩ (s.withRequests rest) = ⟨s.withRequests rest, resultDone,
          [byteOf first.toNat, byteOf count.toNat] ++ ((stringsFrom first.toNat count.toNat).map (stringReport c s)).flatten⟩ :=
        serveReadStrings_of_good low some' few high
      rw [byteOf_toNat, byteOf_toNat] at good
      exact served good
    · rw [length_flatten_pieces (length_stringReport c s), length_stringsFrom low high]
    · exact flatten_piece (length_stringReport c s) (getElem?_stringsFrom low from' to')
  · have served {v : Served} := exec_readLog_of_request (v := v) arrives settings requests
    refine ⟨fun bad => served (serveReadLog_of_bad (bad.imp_left (zero count))), fun some' few numbered absent => ?_,
      fun some' few before after records starts => ?_⟩
    · exact served (serveReadLog_of_absent (r := ⟨source, [6, tag, 3, hi, lo, count]⟩) some' few (readFrom_of_absent _ numbered absent))
    · exact served (serveReadLog_of_found (r := ⟨source, [6, tag, 3, hi, lo, count]⟩) some' few (readFrom_of_split records starts))
  · exact exec_readTally_of_request arrives settings requests

end Sys2Proof.Proofs
end

section
/-! Proofs: the transmitter (sections 2.6 and 2.7): offers, deferrals and the end of a transmission. -/

namespace Sys2Proof.Machine

section
variable {c : Settings} {now : Nat} {a : Abu} {e : TxEntry} {rest : List TxEntry}

/-! ### Deferrals (R39 to R41) -/

theorem startSending_of_cons (queue : a.queue = e :: rest) :
    a.startSending c = { a with
      tx := .sending, deferral := none, frame := e.frame c, readBack := 0
      queue := { e with inFlight := true, replaced := false } :: rest } := by
  rw [Abu.startSending, queue]

/-- An urgent deferral from a start: of 0 to 3 slots, and the transmission begins at once where these have passed. -/
theorem deferUrgent_of_cons (start : Nat) (queue : a.queue = e :: rest) : ∃ slots, slots ≤ 3 ∧
    (now < start + 200 * slots → a.deferUrgent c start now = { a with
      tx := .deferring, deferral := some ⟨start, slots⟩, draws := a.draws + 1 }) ∧
    (start + 200 * slots ≤ now → a.deferUrgent c start now = { a with
      tx := .sending, deferral := none, frame := e.frame c, readBack := 0
      queue := { e with inFlight := true, replaced := false } :: rest, draws := a.draws + 1 }) := by
  refine ⟨drawSlots true a.draws, drawSlots_urgent _, fun waits => ?_, fun passed => ?_⟩
  · exact if_neg (Nat.not_le.2 waits)
  · exact (if_pos passed).trans (startSending_of_cons (by exact queue))

theorem beginDeferral_of_nil (queue : a.queue = []) : a.beginDeferral c now = a := by
  rw [Abu.beginDeferral, queue]

theorem beginDeferral_of_urgent (queue : a.queue = e :: rest) (urgent : e.urgent = true) :
    a.beginDeferral c now = a.deferUrgent c now now := by
  rw [Abu.beginDeferral, queue]
  exact if_pos urgent

theorem beginDeferral_of_normal (queue : a.queue = e :: rest) (normal : e.urgent = false) : ∃ slots, 4 ≤ slots ∧ slots ≤ 19 ∧
    a.beginDeferral c now = { a with tx := .deferring, deferral := some ⟨now, slots⟩, draws := a.draws + 1 } := by
  obtain ⟨low, high⟩ := drawSlots_normal a.draws
  refine ⟨_, low, high, ?_⟩
  rw [Abu.beginDeferral, queue]
  exact if_neg (by simp [normal])

/-! ### What follows the taking of an entry (R39, R40) -/

theorem afterTaking_of_waiting (urgent : Bool)
    (h : a.tx = .waiting ∨ a.tx = .sending ∨ (a.tx = .deferring ∧ (a.deferral = none ∨ urgent = false))) :
    a.afterTaking c now urgent = a := by
  rcases h with h | h | ⟨h, none' | normal⟩
  · rw [Abu.afterTaking, h]
  · rw [Abu.afterTaking, h]
  · rw [Abu.afterTaking, h, none']
  · rw [Abu.afterTaking, h]
    cases a.deferral
    · rfl
    · exact if_neg (by simp [normal])

theorem afterTaking_of_empty_busy (urgent : Bool) (empty : a.tx = .empty) (busy : a.rx ≠ .ready) :
    a.afterTaking c now urgent = { a with tx := .waiting } := by
  rw [Abu.afterTaking, empty]
  exact if_neg busy

theorem afterTaking_of_empty_quiet (urgent : Bool) (empty : a.tx = .empty) (quiet : a.rx = .ready) :
    a.afterTaking c now urgent = a.beginDeferral c now := by
  rw [Abu.afterTaking, empty]
  exact if_pos quiet

theorem afterTaking_of_deferring {d : Deferral} (deferring : a.tx = .deferring) (deferral : a.deferral = some d) :
    a.afterTaking c now true = a.deferUrgent c d.start now := by
  rw [Abu.afterTaking, deferring, deferral]
  rfl

/-! ### Offers (R34 to R37) -/

theorem offerSingle_of_queued {kind : TxKind} (body : List Byte) (queued : ∃ e ∈ a.queue, e.kind = kind) :
    a.offerSingle c now kind body = { a with queue := a.queue.map fun e =>
      if e.kind = kind then { e with body := body, attempts := 0, replaced := e.inFlight } else e } :=
  if_pos (by simpa using queued)

theorem offerSingle_of_absent {kind : TxKind} (body : List Byte) (absent : ∀ e ∈ a.queue, e.kind ≠ kind) :
    a.offerSingle c now kind body = a.offerNew c now ⟨kind, 0, body, 0, false, false⟩ :=
  if_neg (by simpa using absent)

theorem urgent_iff : e.urgent = true ↔ e.kind = .arcClaim := decide_eq_true_iff

theorem urgent_false_iff : e.urgent = false ↔ e.kind ≠ .arcClaim := decide_eq_false_iff_not

/-- A normal entry goes to the back of a queue with room. -/
theorem offerNew_of_normal (normal : e.urgent = false) (room : a.queue.length < 8) :
    a.offerNew c now e = { a with queue := a.queue ++ [e] }.afterTaking c now false := by
  rw [Abu.offerNew, if_neg (by omega), placeEntry, if_neg (by simp [normal]), normal]

/-- An urgent entry goes to the front, and drives the last entry out of a full queue. -/
theorem offerNew_of_urgent (urgent : e.urgent = true) :
    a.offerNew c now e = { a with
      queue := e :: if 8 ≤ a.queue.length then a.queue.dropLast else a.queue
      tally := if 8 ≤ a.queue.length then { a.tally with txDropped := satSucc 65535 a.tally.txDropped } else a.tally
      }.afterTaking c now true := by
  rw [Abu.offerNew]
  split_ifs <;> simp only [placeEntry, urgent, if_true, Tally.bumpDropped]

end

end Sys2Proof.Machine

namespace Sys2Proof.Proofs

open Sys2Proof Sys2Proof.Machine

/-- Settles O41: where the entry is placed, and then what follows its taking, by the state of the transmitter. -/
theorem offersTakeTheirPlaceInTheQueue : Obligations.OffersTakeTheirPlaceInTheQueue := by
  intro c now dest body a
  dsimp only
  refine ⟨fun offer s => ⟨fun silent => ?_, fun c' settings running => offerToBus_of_run settings running⟩, ⟨rfl, rfl, rfl⟩,
    fun kind queued => offerSingle_of_queued body queued, fun kind absent => offerSingle_of_absent body absent, fun kind normal => ?_, ?_⟩
  · rcases silent with none' | silent
    · rw [offerToBus, none']
    · exact offerToBus_of_silent silent
  · have normal : TxEntry.urgent ⟨kind, dest, body, 0, false, false⟩ = false := urgent_false_iff.2 normal
    refine ⟨fun full => offerNew_of_full full normal, fun room => ?_⟩
    rw [offerNew_of_normal normal room]
    refine ⟨fun busy => afterTaking_of_waiting _ ?_, fun empty busy => afterTaking_of_empty_busy _ empty busy,
      fun empty quiet nothing => ?_⟩
    · cases tx : a.tx with
      | empty => exact absurd tx busy
      | waiting => exact .inl rfl
      | deferring => exact .inr (.inr ⟨rfl, .inr rfl⟩)
      | sending => exact .inr (.inl rfl)
    · have alone : a.queue ++ [⟨kind, dest, body, 0, false, false⟩] = [⟨kind, dest, body, 0, false, false⟩] := by rw [nothing]; rfl
      rw [alone]
      obtain ⟨slots, low, high, begun⟩ := beginDeferral_of_normal (c := c) (now := now)
        (a := { a with queue := [⟨kind, dest, body, 0, false, false⟩] }) rfl normal
      exact ⟨slots, low, high, (afterTaking_of_empty_quiet (c := c) (now := now)
        (a := { a with queue := [⟨kind, dest, body, 0, false, false⟩] }) false empty quiet).trans begun⟩
  · rw [offerNew_of_urgent (urgent_iff.2 rfl)]
    refine ⟨fun busy => afterTaking_of_waiting _ (busy.imp_right (Or.imp_right fun ⟨tx, none'⟩ => ⟨tx, .inl none'⟩)),
      fun empty busy => afterTaking_of_empty_busy _ empty busy, fun empty quiet => ?_, fun d deferring deferral => ?_⟩
    · rw [afterTaking_of_empty_quiet _ (by exact empty) (by exact quiet), beginDeferral_of_urgent (by rfl) (urgent_iff.2 rfl)]
      exact deferUrgent_of_cons _ rfl
    · rw [afterTaking_of_deferring (by exact deferring) (by exact deferral)]
      exact deferUrgent_of_cons _ rfl

end Sys2Proof.Proofs
end

section
/-! Proofs: the idle gap, the deferral that runs out, and the end of a transmission (R24, R26, R28, R39, R41, R42). -/

namespace Sys2Proof.Machine

section
variable {c : Settings} {now : Nat} {a : Abu} {e : TxEntry} {rest : List TxEntry}

/-- The unit once the line is quiet, before a deferral begins. -/
def Abu.quieted (a : Abu) : Abu :=
  { a with rx := .ready, taken := [], tally := if a.rx = .gapWait then a.tally else
    { a.tally with byteDiscard := satSucc 65535 a.tally.byteDiscard } }

theorem gapExpired_of_due (receiving : a.tx ≠ .sending) (busy : a.rx ≠ .ready) (gap : a.lastByteEnd + 640 ≤ now) :
    a.gapExpired c now = a.quieted.beginDeferral c now := by
  have passed : a.gapPassed now = true := decide_eq_true gap
  rw [Abu.gapExpired, if_neg (by simp [receiving, busy, passed])]
  rfl

theorem deferralExpired_of_due {d : Deferral} (deferral : a.deferral = some d) (tx : a.tx = .deferring) (rx : a.rx = .ready)
    (passed : d.start + 200 * d.slots ≤ now) : a.deferralExpired c now = a.startSending c := by
  rw [Abu.deferralExpired, deferral]
  exact if_pos ⟨tx, rx, passed⟩

theorem deferralExpired_of_early {d : Deferral} (deferral : a.deferral = some d) (early : now < d.start + 200 * d.slots) :
    a.deferralExpired c now = a := by
  rw [Abu.deferralExpired, deferral]
  exact if_neg fun due => Nat.not_le.2 early due.2.2

/-! ### The end of a transmission (R41, R42) -/

/-- What a collision leaves of an entry, with the class's limit written out. -/
theorem collided_eq (e : TxEntry) : e.collided =
    if e.inFlight then
      (if e.replaced then some { e with attempts := 0, inFlight := false, replaced := false }
        else if decide ((if e.kind = .arcClaim then 16 else 8) ≤ e.attempts + 1) then none
        else some { e with attempts := e.attempts + 1, inFlight := false })
    else some e := by
  simp only [TxEntry.collided, TxEntry.limit, TxEntry.urgent, decide_eq_true_eq]

theorem collided_isNone (e : TxEntry) :
    e.collided.isNone = (e.inFlight && !e.replaced && decide ((if e.kind = .arcClaim then 16 else 8) ≤ e.attempts + 1)) := by
  rw [collided_eq]
  cases e.inFlight <;> cases e.replaced <;> split_ifs <;> simp_all

theorem collide_eq (now : Nat) (a : Abu) :
    let counted := { a.tally with collisions := satSucc 65535 a.tally.collisions }
    a.collide now = { a with
      rx := .gapWait, taken := [], lastByteEnd := now, frame := [], readBack := 0
      queue := a.queue.filterMap TxEntry.collided
      tally := if a.queue.any fun e =>
          e.inFlight && !e.replaced && decide ((if e.kind = .arcClaim then 16 else 8) ≤ e.attempts + 1)
        then { counted with txDropped := satSucc 65535 counted.txDropped } else counted
      tx := if (a.queue.filterMap TxEntry.collided).isEmpty then .empty else .waiting } := by
  dsimp only
  rw [← funext collided_isNone]
  rfl

end

/-! ### The commands -/

section
variable {dt : Nat} {start s : State} {c : Settings} (arrives : start.arrive dt = s)
include arrives

theorem exec_idleGapExpiry_of_settings (settings : s.settings = some c) :
    exec (.idleGapExpiry dt) start = .next (s.withAbu (s.abu.gapExpired c s.timeUs)) := by
  simp only [exec, execIdleGapExpiry, arrives, settings]

theorem exec_deferralExpiry_of_settings (settings : s.settings = some c) :
    exec (.deferralExpiry dt) start = .next (s.withAbu (s.abu.deferralExpired c s.timeUs)) := by
  simp only [exec, execDeferralExpiry, arrives, settings]

theorem exec_transmissionComplete_of_sending (sending : s.abu.tx = .sending) :
    exec (.transmissionComplete dt) start = .next (s.withAbu (s.abu.complete s.timeUs)) := by
  simp only [exec, execTransmissionComplete, arrives, sending, if_true]

theorem exec_collision_of_sending (sending : s.abu.tx = .sending) :
    exec (.collision dt) start = .next (s.withAbu (s.abu.collide s.timeUs)) := by
  simp only [exec, execCollision, arrives, sending, if_true]

theorem exec_byteArrival_of_sending (settings : s.settings = some c) (sending : s.abu.tx = .sending) (b : Byte) (stopError : Bool) :
    exec (.byteArrival dt b stopError) start = .next (s.withAbu (s.abu.readBackByte s.timeUs b stopError)) := by
  simp only [exec, execByteArrival, arrives, settings, busByte, sending, if_true]

end

end Sys2Proof.Machine

namespace Sys2Proof.Proofs

open Sys2Proof Sys2Proof.Machine

/-- Settles O42: the quiet line begins a deferral of the head's class, and a deferral that has run out sends the head. -/
theorem idleGapBeginsADeferralThatSends : Obligations.IdleGapBeginsADeferralThatSends := by
  intro dt start c
  dsimp only
  generalize arrives : start.arrive dt = s
  intro settings
  refine ⟨fun receiving busy gap => ?_, fun d e rest tx rx deferral passed queue => ?_, fun d deferral early => ?_⟩
  · refine ⟨_, exec_idleGapExpiry_of_settings arrives settings, ?_⟩
    rw [State.withAbu_abu, gapExpired_of_due receiving busy gap]
    simp only [beginDeferral_frame]
    refine ⟨rfl, rfl, rfl, fun nothing => ?_, fun e rest queue normal => ?_, fun e rest queue urgent => ?_⟩
    · rw [beginDeferral_of_nil (a := s.abu.quieted) nothing]
      exact ⟨rfl, rfl, nothing⟩
    · obtain ⟨slots, low, high, begun⟩ := beginDeferral_of_normal (c := c) (now := s.timeUs) (a := s.abu.quieted) queue
        (urgent_false_iff.2 normal)
      rw [begun]
      exact ⟨rfl, queue, _, rfl, rfl, low, high⟩
    · rw [beginDeferral_of_urgent (a := s.abu.quieted) queue (urgent_iff.2 urgent)]
      obtain ⟨slots, few, waits, passes⟩ := deferUrgent_of_cons (c := c) (now := s.timeUs) (a := s.abu.quieted) s.timeUs queue
      rcases Nat.eq_zero_or_pos slots with none' | some'
      · rw [passes (by omega)]
        exact .inr ⟨rfl, rfl, rfl⟩
      · rw [waits (by omega)]
        exact .inl ⟨rfl, queue, _, rfl, rfl, some', few⟩
  · rw [exec_deferralExpiry_of_settings arrives settings, deferralExpired_of_due deferral tx rx passed, startSending_of_cons queue]
    rfl
  · rw [exec_deferralExpiry_of_settings arrives settings, deferralExpired_of_early deferral early]
    rfl

/-- Settles O43. -/
theorem transmissionEndsByCompletionOrCollision : Obligations.TransmissionEndsByCompletionOrCollision := by
  intro dt start
  dsimp only
  generalize arrives : start.arrive dt = s
  intro sending
  rw [exec_transmissionComplete_of_sending arrives sending, exec_collision_of_sending arrives sending]
  refine ⟨rfl, ?_, fun commissioned b stopError => ?_⟩
  · rw [collide_eq, funext collided_eq]
  · obtain ⟨c, settings⟩ := Option.ne_none_iff_exists'.1 commissioned
    rw [exec_byteArrival_of_sending arrives settings sending]
    refine ⟨fun differs => ?_, fun good agrees last => ?_, fun good agrees more => ?_⟩
    · rw [Abu.readBackByte, if_pos differs]
    · rw [Abu.readBackByte, if_neg (by simp [good, agrees]), if_pos last]
    · rw [Abu.readBackByte, if_neg (by simp [good, agrees]), if_neg more]

end Sys2Proof.Proofs
end

section
/-! Proofs: telegrams and their delivery (R27, R29 to R32, R38, R46). -/

namespace Sys2Proof.Machine

/-! ### The last check byte (R27) -/

section
variable {c : Settings} {s : State} {b : Byte}

/-- The two check bytes against the value over the bytes before them, in a telegram of which `b` is the last byte. -/
theorem checkAgrees_iff {taken : List Byte} (header : 5 ≤ taken.length)
    (last : taken.length + 1 = 5 + (taken.getD 4 0).toNat + 2) :
    checkAgrees (taken ++ [b]) = true ↔
      (taken ++ [b]).drop (taken.length - 1) = be16 (crc16 ((taken ++ [b]).take (taken.length - 1))).toNat := by
  have promised : 5 + promisedLength (taken ++ [b]) = taken.length - 1 := by
    rw [promisedLength, List.getD_append _ _ _ _ header]
    omega
  rw [checkAgrees, promised]
  exact decide_eq_true_iff

/-- The unit after a telegram's last byte, before the check value is looked at. -/
def Abu.ended (now : Nat) (a : Abu) : Abu := { a.noteByte now with rx := .gapWait, taken := [] }

theorem completeTelegram_of_bad (bad : checkAgrees (s.abu.taken ++ [b]) = false) :
    completeTelegram c (s.abu.taken ++ [b]) (s.withAbu (s.abu.noteByte s.timeUs)) =
      s.withAbu { s.abu.ended s.timeUs with
        tally := { s.abu.tally with crcDiscard := satSucc 65535 s.abu.tally.crcDiscard } } := by
  rw [completeTelegram, bad]
  rfl

theorem completeTelegram_of_good (good : checkAgrees (s.abu.taken ++ [b]) = true) :
    completeTelegram c (s.abu.taken ++ [b]) (s.withAbu (s.abu.noteByte s.timeUs)) =
      deliver c (telegramOf (s.abu.taken ++ [b])) (s.withAbu { s.abu.ended s.timeUs with
        tally := { s.abu.tally with valid := satSucc 65535 s.abu.tally.valid } }) := by
  rw [completeTelegram, good]
  rfl

theorem deliver_of_own {t : Telegram} (own : t.source = c.station) :
    deliver c t s = if s.abu.silent then s else enterSilent s := if_pos own

/-- The byte that completes a telegram, as it comes by either command. -/
theorem exec_lastByte {dt : Nat} {start : State} (arrives : start.arrive dt = s) (settings : s.settings = some c)
    (body : s.abu.rx = .body) (receiving : s.abu.tx ≠ .sending) (header : 5 ≤ s.abu.taken.length)
    (last : s.abu.taken.length + 1 = 5 + (s.abu.taken.getD 4 0).toNat + 2) :
    exec (.byteArrival dt b false) start =
        .next (completeTelegram c (s.abu.taken ++ [b]) (s.withAbu (s.abu.noteByte s.timeUs))) ∧
      exec (.telegramComplete dt b) start =
        .next (completeTelegram c (s.abu.taken ++ [b]) (s.withAbu (s.abu.noteByte s.timeUs))) := by
  subst arrives
  have whole : (start.arrive dt).abu.taken.length + 1 = telegramLength ((start.arrive dt).abu.taken ++ [b]) := by
    rw [telegramLength_append header, last]
  have awaits : (start.arrive dt).abu.awaitsLastByte = true := by
    rw [← List.append_nil (start.arrive dt).abu.taken] at last
    simpa [Abu.awaitsLastByte, body, receiving, telegramLength, promisedLength] using last
  refine ⟨?_, ?_⟩
  · rw [byteArrival_of_receiving settings receiving]
    simp [classifyByte, Abu.noteByte, body, whole]
  · simp only [exec, execTelegramComplete, settings, awaits, if_true]
    rfl

end

/-! ### Delivery (R29, R30, R32, R38, R46) -/

section
variable {c : Settings} {t : Telegram} {s : State}

theorem forUs_iff : t.forUs c = true ↔ t.dest = 0 ∨ t.dest = c.station := by simp [Telegram.forUs]

theorem deliver_of_run (foreign : t.source ≠ c.station) (run : s.abu.silent = false) :
    deliver c t s = deliverInRun c t s := by
  rw [deliver, if_neg foreign, if_neg (by simp [run])]

theorem deliver_of_silent (foreign : t.source ≠ c.station) (silent : s.abu.silent = true) :
    deliver c t s = deliverInSilent c t s := by
  rw [deliver, if_neg foreign, if_pos silent]

theorem deliverInRun_of_digest (kind : t.kind = 0x21) :
    deliverInRun c t s = if t.forUs c then takeDigest c t (s.withPtb (s.ptb.heard t.source s.nowMs))
      else s.withPtb (s.ptb.heard t.source s.nowMs) := if_pos kind

theorem deliverInRun_of_claim (kind : t.kind = 0x2A) :
    deliverInRun c t s = if t.forUs c then takeClaim c t (s.withPtb (s.ptb.heard t.source s.nowMs))
      else s.withPtb (s.ptb.heard t.source s.nowMs) := by
  rw [deliverInRun, if_neg (by rw [kind]; decide), if_pos (by exact kind)]

theorem deliverInRun_of_request (kind : t.kind = 0x31) :
    deliverInRun c t s = if t.dest = c.station then deliverRequest t (s.withPtb (s.ptb.heard t.source s.nowMs))
      else s.withPtb (s.ptb.heard t.source s.nowMs) := by
  rw [deliverInRun, if_neg (by rw [kind]; decide), if_neg (by rw [kind]; decide), if_pos (by exact kind)]

theorem deliverInRun_of_reply (kind : t.kind = 0x32) : deliverInRun c t s = s.withPtb (s.ptb.heard t.source s.nowMs) := by
  rw [deliverInRun, if_neg (by rw [kind]; decide), if_neg (by rw [kind]; decide), if_neg (by rw [kind]; decide)]

/-- A telegram for another station is heard and no more. -/
theorem deliverInRun_of_other (other : ¬ (t.dest = 0 ∨ t.dest = c.station)) :
    deliverInRun c t s = s.withPtb (s.ptb.heard t.source s.nowMs) := by
  have forOthers : ¬ t.forUs c = true := mt forUs_iff.1 other
  have elsewhere : t.dest ≠ c.station := fun own => other (.inr own)
  unfold deliverInRun
  simp only [forOthers, elsewhere, if_false, Bool.false_eq_true, ite_self]

theorem requestReadable_iff {body : List Byte} :
    requestReadable body = true ↔ 3 ≤ body.length ∧ 1 ≤ (body.getD 0 0).toNat ∧ (body.getD 0 0).toNat ≤ 7 := by
  simp [requestReadable, isRequestKind]

/-- The first waiting reply to the requester goes, and is counted. -/
theorem supersede_of_waiting {source : Nat} {a : Abu} {before after : List TxEntry} {e : TxEntry} (queue : a.queue = before ++ e :: after)
    (reply : e.kind = .reply) (dest : e.dest = source) (earlier : ∀ q ∈ before, ¬ (q.kind = .reply ∧ q.dest = source)) :
    a.supersede source = { a with
      queue := before ++ after, tally := { a.tally with repliesSuperseded := satSucc 65535 a.tally.repliesSuperseded }
      tx := if before ++ after = [] then .empty else a.tx
      deferral := if before ++ after = [] then none else a.deferral } := by
  have skipped : ∀ q ∈ before, ¬ (decide (q.kind = .reply) && decide (q.dest = source)) = true := fun q hq => by
    simpa using earlier q hq
  have found : (a.queue.any fun e => decide (e.kind = .reply) && decide (e.dest = source)) = true := by
    simp [queue, reply, dest]
  have left : (a.queue.eraseP fun e => decide (e.kind = .reply) && decide (e.dest = source)) = before ++ after := by
    rw [queue, List.eraseP_append_right _ skipped, List.eraseP_cons_of_pos (by simp [reply, dest])]
  rw [Abu.supersede]
  dsimp only
  rw [if_pos found, left]
  simp only [List.isEmpty_iff, Tally.bumpSuperseded]

end

end Sys2Proof.Machine

namespace Sys2Proof.Proofs

open Sys2Proof Sys2Proof.Machine

/-- Settles O38. -/
theorem telegramCompletesOnItsCheckValue : Obligations.TelegramCompletesOnItsCheckValue := by
  intro dt b start c
  dsimp only
  generalize arrives : start.arrive dt = s
  intro settings body receiving header last
  obtain ⟨byBits, byWhole⟩ := exec_lastByte (b := b) arrives settings body receiving header last
  rw [byBits, byWhole]
  have agrees := checkAgrees_iff (b := b) header last
  refine ⟨rfl, fun differs => ?_, fun same => ?_, fun same own run => ?_, fun same own silent => ?_⟩
  · rw [completeTelegram_of_bad (Bool.eq_false_iff.2 (mt agrees.1 differs))]
    rfl
  · rw [completeTelegram_of_good (agrees.2 same)]
    rfl
  · rw [completeTelegram_of_good (agrees.2 same), deliver_of_own own]
    exact congrArg _ (if_neg (by simpa [Abu.ended, Abu.noteByte] using run))
  · rw [completeTelegram_of_good (agrees.2 same), deliver_of_own own]
    exact congrArg _ (if_pos silent)

/-- Settles O39: the delivery by mode, kind and destination. -/
theorem deliveryFollowsKindAndDestination : Obligations.DeliveryFollowsKindAndDestination := by
  intro c t s foreign
  have run (running : s.abu.silent = false) := deliver_of_run foreign running
  have silent (quiet : s.abu.silent = true) := deliver_of_silent foreign quiet
  refine ⟨fun running kind us => ?_, fun running kind us => ?_, fun running kind => ?_, fun running other => ?_,
    fun running kind all own => ?_, fun running kind own => ⟨fun readable => ?_, fun unreadable => ?_⟩, fun absent => ?_,
    fun before e after queue reply dest earlier => supersede_of_waiting queue reply dest earlier, fun quiet kind us => ?_,
    fun quiet other => ?_⟩
  · rw [run running, deliverInRun_of_digest kind]
    exact if_pos (forUs_iff.2 us)
  · rw [run running, deliverInRun_of_claim kind]
    exact if_pos (forUs_iff.2 us)
  · rw [run running, deliverInRun_of_reply kind]
    rfl
  · rw [run running, deliverInRun_of_other other]
    rfl
  · rw [run running, deliverInRun_of_request kind]
    exact if_neg fun same => own (same.symm.trans all)
  · rw [run running, deliverInRun_of_request kind, if_pos own, deliverRequest]
    exact if_pos (requestReadable_iff.2 readable)
  · rw [run running, deliverInRun_of_request kind, if_pos own, deliverRequest]
    exact if_neg (mt requestReadable_iff.1 unreadable)
  · exact supersede_of_none fun e he reply dest => absent e he ⟨reply, dest⟩
  · rw [silent quiet, deliverInSilent, if_pos (by exact kind), if_pos (forUs_iff.2 us)]
  · rw [silent quiet, deliverInSilent]
    rcases other with kind | other
    · exact if_neg kind
    · rw [if_neg (mt forUs_iff.1 other), ite_self]

end Sys2Proof.Proofs
end

section
/-! Proofs: what a due tick leaves of a string's fast-check record and of its path part (R88 to R90, R124, R126). -/

namespace Sys2Proof.Machine

/-! ### The command in RUN and SILENT -/

@[simp] theorem readInputs_leaves (raw : RawInputs) (s : State) :
    (readInputs raw s).timeUs = s.timeUs ∧ (readInputs raw s).settings = s.settings ∧ (readInputs raw s).wac = s.wac ∧
    (readInputs raw s).abu = s.abu ∧ (readInputs raw s).acu = s.acu ∧ (readInputs raw s).adj = s.adj ∧
    (readInputs raw s).paths = s.paths ∧ (readInputs raw s).boxTrip = s.boxTrip ∧ (readInputs raw s).flg = s.flg ∧
    (readInputs raw s).nvs = s.nvs ∧ (readInputs raw s).arrivals = s.arrivals ∧ (readInputs raw s).demands = s.demands ∧
    (readInputs raw s).nowMs = s.nowMs ∧ (readInputs raw s).seconds = s.seconds ∧
    (∀ i, (readInputs raw s).present i = s.present i) ∧ (∀ i, (readInputs raw s).path i = s.path i) ∧
    (∀ i, (readInputs raw s).adjOf i = s.adjOf i) ∧ (∀ i, (readInputs raw s).hold i = s.hold i) := by
  simp [readInputs, State.hold]

/-- A due tick with settings reads its inputs and hands the set to its consumers, once the earlier arrivals have been taken. -/
theorem exec_protectionTick_of_due {dt : Nat} {raw : RawInputs} {order : TickOrder} {start s : State} {c : Settings}
    (taken : takeArrivals (start.arrive dt) = s) (settings : s.settings = some c) (due : s.sfe.nextTick ≤ s.timeUs) :
    exec (.protectionTick dt raw order) start = .next (endStep order.demandsWait (consumeTick c order (readInputs raw s))) := by
  subst taken
  have due : (start.arrive dt).sfe.nextTick ≤ (start.arrive dt).timeUs := by simpa using due
  have settings : (readInputs raw (takeArrivals (start.arrive dt))).settings = some c := by simpa using settings
  rw [exec_protectionTick, execProtectionTick]
  dsimp only
  rw [if_pos due, settings]

/-- The parts that a command names late are on their way when its step ends. -/
theorem arrivals_consumeTick (c : Settings) (order : TickOrder) (s : State) :
    (consumeTick c order s).arrivals = s.arrivals ++ order.late.eraseDups.map .tick := by
  simp [consumeTick]

theorem mem_arrivals_of_late {c : Settings} {order : TickOrder} {part : TickPart} (s : State) (late : part ∈ order.late) :
    .tick part ∈ (consumeTick c order s).arrivals := by
  rw [arrivals_consumeTick]
  exact List.mem_append_right _ (List.mem_map_of_mem (List.mem_eraseDups.2 late))

theorem adjOf_consumeTick (c : Settings) (order : TickOrder) (s : State) (i : StringIdx) :
    (consumeTick c order s).adjOf i = if TickPart.fastCheck i ∈ order.late then s.adjOf i else (fastCheck c i s).adjOf i := by
  have parts := adjOf_tickParts c i (tickSchedule order) (nodup_tickSchedule order) s
  simp only [mem_tickSchedule, ite_not] at parts
  exact parts

theorem path_consumeTick (c : Settings) (order : TickOrder) (s : State) (i : StringIdx) :
    (consumeTick c order s).path i = if TickPart.zeroBand i ∈ order.late then s.path i else (zeroBandSample i s).path i := by
  have parts := path_tickParts c i (tickSchedule order) (nodup_tickSchedule order) s
  simp only [mem_tickSchedule, ite_not] at parts
  exact parts

/-! ### The fast-check record (R88 to R90) -/

theorem connected_iff {p : Path} : p.connected = true ↔ p.state = .closed ∨ p.state = .closing := by
  simp [Path.connected]

/-- The record of a tested string after its sample: a run that reaches 3 declares and returns to 0. -/
def AdjRecord.checked (c : Settings) (current : Int) (a : AdjRecord) : AdjRecord :=
  let b := a.sampled c current
  if 3 ≤ b.reverseRun ∨ 3 ≤ b.overRun then b.untested else b

theorem adjOf_fastCheck_of_connected {c : Settings} {i : StringIdx} {s : State} (tested : (s.path i).connected = true) :
    (fastCheck c i s).adjOf i = (s.adjOf i).checked c s.sfe.currents[i] := by
  rw [adjOf_fastCheck, if_pos tested]
  rfl

theorem adjOf_fastCheck_of_not_connected {c : Settings} {i : StringIdx} {s : State} (untested : ¬ (s.path i).connected = true) :
    (fastCheck c i s).adjOf i = (s.adjOf i).untested := by
  rw [adjOf_fastCheck, if_neg untested]

section
variable {c : Settings} {current : Int} {a : AdjRecord}

theorem sampled_of_reverse (reverse : current ≤ -(c.reverseLimit : Int)) :
    a.sampled c current = { a with
      reverseRun := a.reverseRun + 1, reversePeak := some (min (a.reversePeak.getD current) current)
      overRun := 0, overPeak := none } := by
  rw [AdjRecord.sampled, if_pos reverse]
  cases a.reversePeak <;> simp

theorem sampled_of_over (forward : ¬ current ≤ -(c.reverseLimit : Int)) (beyond : (c.overcurrentLimit : Int) ≤ current) :
    a.sampled c current = { a with
      reverseRun := 0, reversePeak := none
      overRun := a.overRun + 1, overPeak := some (max (a.overPeak.getD current) current) } := by
  rw [AdjRecord.sampled, if_neg forward, if_pos beyond]
  cases a.overPeak <;> simp

theorem sampled_of_within (forward : ¬ current ≤ -(c.reverseLimit : Int)) (within' : ¬ (c.overcurrentLimit : Int) ≤ current) :
    a.sampled c current = a.untested := by
  rw [AdjRecord.sampled, if_neg forward, if_neg within', AdjRecord.untested]

theorem checked_of_short {b : AdjRecord} (sampled : a.sampled c current = b) (short : b.reverseRun < 3 ∧ b.overRun < 3) :
    a.checked c current = b := by
  subst sampled
  exact if_neg (by omega)

theorem checked_of_long {b : AdjRecord} (sampled : a.sampled c current = b) (long : 3 ≤ b.reverseRun ∨ 3 ≤ b.overRun) :
    a.checked c current = b.untested := by
  subst sampled
  exact if_pos long

theorem strikes_checked : (a.checked c current).strikes = a.strikes := by
  unfold AdjRecord.checked AdjRecord.sampled AdjRecord.untested
  dsimp only
  split_ifs <;> rfl

end

/-- The strikes are not the fast check's. -/
theorem strikes_fastCheck (c : Settings) (i : StringIdx) (s : State) : ((fastCheck c i s).adjOf i).strikes = (s.adjOf i).strikes := by
  by_cases tested : (s.path i).connected = true
  · rw [adjOf_fastCheck_of_connected tested, strikes_checked]
  · rw [adjOf_fastCheck_of_not_connected tested, AdjRecord.untested]

/-! ### The path part and its mark (R12, R124, R126) -/

theorem inZeroBand_iff {current : Int} : inZeroBand current = true ↔ -20 ≤ current ∧ current ≤ 20 := by
  rw [inZeroBand, decide_eq_true_eq]
  omega

theorem path_zeroBandSample_of_inside {i : StringIdx} {s : State} (at' : (s.path i).state = .confirming ∨ (s.path i).state = .stuck)
    (inside : inZeroBand s.sfe.currents[i] = true) :
    (zeroBandSample i s).path i = { s.path i with state := .parting, deadline := some (s.nowMs + ms 30) } := by
  rw [zeroBandSample, if_pos ⟨at', inside⟩, path_changePath, if_pos rfl]

theorem path_zeroBandSample_of_outside {i : StringIdx} {s : State} (outside : ¬ inZeroBand s.sfe.currents[i] = true) :
    (zeroBandSample i s).path i = s.path i := by
  rw [zeroBandSample, if_neg (fun h => outside h.2)]

/-- A string in CONFIRMING, PARTING, ISOLATED or STUCK is where no open demand moves it. -/
theorem path_takeDemands_of_resting {s : State} {i : StringIdx}
    (at' : (s.path i).state = .confirming ∨ (s.path i).state = .parting ∨ (s.path i).state = .isolated ∨ (s.path i).state = .stuck) :
    (takeDemands s).path i = s.path i := by
  rw [path_takeDemands]
  generalize s.demands.filter _ = l
  induction l with
  | nil => rfl
  | cons d l ih => rw [List.foldl_cons, demanded_eq (by tauto), ih]

theorem path_endStep_of_resting {s : State} {i : StringIdx} (wait : Bool)
    (at' : (s.path i).state = .confirming ∨ (s.path i).state = .parting ∨ (s.path i).state = .isolated ∨ (s.path i).state = .stuck) :
    (endStep wait s).path i = s.path i := by
  cases wait with
  | true => rfl
  | false => exact path_takeDemands_of_resting at'

/-- Every change of path state on the way from `s` to `t` has set the path-change mark, and nothing has cleared it. -/
def MarksChanges (s t : State) : Prop :=
  (s.wac.pathChanged = true → t.wac.pathChanged = true) ∧
    ∀ i, (t.path i).state ≠ (s.path i).state → t.wac.pathChanged = true

theorem MarksChanges.refl (s : State) : MarksChanges s s := ⟨id, fun _ moved => absurd rfl moved⟩

theorem MarksChanges.trans {s t u : State} (first : MarksChanges s t) (second : MarksChanges t u) : MarksChanges s u := by
  refine ⟨fun h => second.1 (first.1 h), fun i moved => ?_⟩
  by_cases early : (t.path i).state = (s.path i).state
  · exact second.2 i (by rwa [early])
  · exact second.1 (first.2 i early)

theorem MarksChanges.of_eq {s t : State} (wac : t.wac = s.wac) (paths : t.paths = s.paths) : MarksChanges s t := by
  refine ⟨fun h => by rwa [wac], fun i moved => absurd ?_ moved⟩
  rw [State.path, State.path, paths]

theorem MarksChanges.foldl {α : Type} {f : State → α → State} (each : ∀ s a, MarksChanges s (f s a)) (l : List α) (s : State) :
    MarksChanges s (l.foldl f s) := by
  induction l generalizing s with
  | nil => exact .refl s
  | cons a l ih => exact (each s a).trans (ih _)

theorem marksChanges_changePath (i : StringIdx) (p : Path) (s : State) : MarksChanges s (changePath i p s) := by
  refine ⟨fun h => by rw [pathChanged_changePath, h, Bool.true_or], fun j moved => ?_⟩
  have here : j = i := by
    by_contra other
    exact moved (by rw [path_changePath_ne other])
  subst here
  rw [path_changePath, if_pos rfl] at moved
  rw [pathChanged_changePath, decide_eq_true moved.symm, Bool.or_true]

theorem marksChanges_takeTickPart (c : Settings) (s : State) (part : TickPart) : MarksChanges s (takeTickPart c s part) := by
  cases part with
  | fastCheck i => exact .of_eq (by simp [takeTickPart]) (by simp [takeTickPart])
  | arcContest => exact .of_eq (by simp [takeTickPart]) (by simp [takeTickPart])
  | zeroBand i =>
    rw [takeTickPart, zeroBandSample]
    split
    · exact marksChanges_changePath _ _ _
    · exact .refl _

theorem marksChanges_endStep (wait : Bool) (s : State) : MarksChanges s (endStep wait s) := by
  cases wait with
  | true => exact .refl s
  | false => exact .foldl (fun t d => marksChanges_changePath d.string _ t) s.demands (s.withDemands [])

@[simp] theorem pathChanged_countTick (c : Settings) (w : Wac) : (w.countTick c).pathChanged = w.pathChanged := by
  unfold Wac.countTick
  split
  · rfl
  · split_ifs <;> rfl

theorem marksChanges_consumeTick (c : Settings) (order : TickOrder) (s : State) : MarksChanges s (consumeTick c order s) := by
  obtain ⟨kept, marked⟩ := MarksChanges.foldl (marksChanges_takeTickPart c) (tickSchedule order) s
  exact ⟨fun h => by simpa [consumeTick] using kept h, fun i moved => by simpa [consumeTick] using marked i moved⟩

end Sys2Proof.Machine

namespace Sys2Proof.Proofs

open Sys2Proof Sys2Proof.Machine

/-- Settles O12: whatever the order, the record is what the string's own fast check makes of it, and the sample falls in one row of
the table. -/
theorem fastCheckRunsFollowTheSample : Obligations.FastCheckRunsFollowTheSample := by
  intro dt raw order start c i
  dsimp only
  generalize taken : takeArrivals (start.arrive dt) = s
  intro settings due
  refine ⟨_, exec_protectionTick_of_due taken settings due, ?_⟩
  simp only [endStep_frame, consumeTick_frame]
  rw [adjOf_consumeTick]
  refine ⟨?_, fun late => ⟨?_, mem_arrivals_of_late _ late⟩, fun onTime => ?_⟩
  · split_ifs
    · simp
    · simpa using strikes_fastCheck c i (readInputs raw s)
  · rw [if_pos late]
    simp
  rw [if_neg onTime]
  have adj : (readInputs raw s).adjOf i = s.adjOf i := by simp
  have path : (readInputs raw s).path i = s.path i := by simp
  generalize readInputs raw s = u at adj path
  rw [← adj, ← path, ← connected_iff]
  have checked (tested : (u.path i).connected = true) := adjOf_fastCheck_of_connected (c := c) tested
  refine ⟨fun tested reverse run => ?_, fun tested reverse run => ?_, fun tested forward beyond run => ?_,
    fun tested forward beyond run => ?_, fun calm => ?_⟩
  · rw [checked tested, checked_of_short (sampled_of_reverse reverse) ⟨by dsimp only; omega, Nat.zero_lt_succ 2⟩]
    exact ⟨rfl, rfl, rfl, rfl⟩
  · rw [checked tested, checked_of_long (sampled_of_reverse reverse) (.inl (by dsimp only; omega))]
    exact ⟨rfl, rfl, rfl, rfl⟩
  · rw [checked tested, checked_of_short (sampled_of_over forward beyond) ⟨Nat.zero_lt_succ 2, by dsimp only; omega⟩]
    exact ⟨rfl, rfl, rfl, rfl⟩
  · rw [checked tested, checked_of_long (sampled_of_over forward beyond) (.inr (by dsimp only; omega))]
    exact ⟨rfl, rfl, rfl, rfl⟩
  · by_cases tested : (u.path i).connected = true
    · obtain ⟨forward, within'⟩ := calm.resolve_left (not_not.2 tested)
      rw [checked tested, checked_of_short (sampled_of_within forward within') ⟨Nat.zero_lt_succ 2, Nat.zero_lt_succ 2⟩]
      exact ⟨rfl, rfl, rfl, rfl⟩
    · rw [adjOf_fastCheck_of_not_connected tested]
      exact ⟨rfl, rfl, rfl, rfl⟩

/-- Settles O14: the path part is what the string's own zero-band test makes of it, no open demand moves a string that waits there, and
the change sets the mark. -/
theorem zeroBandSampleSendsToParting : Obligations.ZeroBandSampleSendsToParting := by
  intro dt raw order start c i
  dsimp only
  generalize taken : takeArrivals (start.arrive dt) = s
  intro settings due at'
  refine ⟨_, exec_protectionTick_of_due taken settings due, ?_⟩
  simp only [endStep_frame, consumeTick_frame]
  have path : (readInputs raw s).path i = s.path i := by simp
  have now : (readInputs raw s).nowMs = s.nowMs := by simp
  generalize readInputs raw s = u at path now
  rw [← path] at at'
  rw [← path, ← now]
  have resting (unmoved : (consumeTick c order u).path i = u.path i) :
      (endStep order.demandsWait (consumeTick c order u)).path i = u.path i := by
    rw [path_endStep_of_resting _ (by rw [unmoved]; tauto), unmoved]
  refine ⟨fun onTime low high => ?_, fun outside => ?_, fun late => ⟨?_, mem_arrivals_of_late _ late⟩⟩
  · have moved : (consumeTick c order u).path i = { u.path i with state := .parting, deadline := some (u.nowMs + ms 30) } := by
      rw [path_consumeTick, if_neg onTime, path_zeroBandSample_of_inside at' (inZeroBand_iff.2 ⟨low, high⟩)]
    refine ⟨?_, ?_⟩
    · rw [path_endStep_of_resting _ (by rw [moved]; tauto), moved]
    · refine (marksChanges_endStep _ _).1 ((marksChanges_consumeTick c order u).2 i ?_)
      rw [moved]
      rcases at' with at' | at' <;> simp [at']
  · refine resting ?_
    rw [path_consumeTick, path_zeroBandSample_of_outside (mt inZeroBand_iff.1 outside), ite_self]
  · refine resting ?_
    rw [path_consumeTick, if_pos late]

end Sys2Proof.Proofs
end

section
/-! Proofs: what a protection tick leaves alone, and the countdown and sums of the window sample (R7, R9 to R12). -/

namespace Sys2Proof.Machine

/-! ### What taking arrivals and demands leaves of the accumulator, the bus unit and the store -/

/-- The part of the Array bus unit that an offer leaves: what it has received, and all the tally but TX_DROPPED. -/
def Abu.reception (a : Abu) : Abu :=
  { a with
    tx := .empty, queue := [], deferral := none, draws := 0, frame := [], readBack := 0, lastByteEnd := 0
    tally := { a.tally with txDropped := 0 } }

/-- The bytes of the store outside the lockout page. -/
def Nvs.outsideLockoutPage (n : Nvs) (a : Nat) : Option Byte := if a / 64 = 2 then none else some (Memory.read n.store a)

/-- What no arrival and no open demand changes of the three blocks they reach in passing. -/
def State.undertone (s : State) : Wac × Abu × (Nat → Option Byte) :=
  (s.wac.besidesMarks, s.abu.reception, s.nvs.outsideLockoutPage)

theorem undertone_of_eq {s t : State} (wac : t.wac.besidesMarks = s.wac.besidesMarks) (abu : t.abu = s.abu) (nvs : t.nvs = s.nvs) :
    t.undertone = s.undertone := by
  rw [State.undertone, State.undertone, wac, abu, nvs]

theorem undertone_changePath (i : StringIdx) (p : Path) (s : State) : (changePath i p s).undertone = s.undertone :=
  undertone_of_eq (besidesMarks_changePath i p s) (by simp) (by simp)

theorem undertone_takeDemands (s : State) : (takeDemands s).undertone = s.undertone :=
  undertone_of_eq (besidesMarks_takeDemands s) (by simp) (by simp)

theorem undertone_endStep (wait : Bool) (s : State) : (endStep wait s).undertone = s.undertone := by
  cases wait with
  | true => rfl
  | false => exact undertone_takeDemands s

theorem outsideLockoutPage_maskChange (s : State) : (maskChange s).nvs.outsideLockoutPage = s.nvs.outsideLockoutPage := by
  funext a
  unfold maskChange
  split
  · unfold Nvs.outsideLockoutPage
    split
    · rfl
    · simp_all [beginLockoutWrite, beginWrite, WriteKind.pages, read_erasePage]
  · rfl

theorem undertone_withMaskChange {act : State → State} {s : State} (kept : (act s).undertone = s.undertone) :
    (withMaskChange act s).undertone = s.undertone := by
  unfold withMaskChange
  dsimp only
  split
  · exact kept
  · rw [← kept, State.undertone, State.undertone, outsideLockoutPage_maskChange]
    simp

theorem undertone_declareFault (c : Settings) (d : Declaration) (s : State) : (declareFault c d s).undertone = s.undertone := by
  have held : (holdConsequence c d.string d.consequence (recordFault d s)).undertone = (recordFault d s).undertone := by
    unfold holdConsequence
    split
    · exact undertone_withMaskChange (undertone_of_eq (by simp) (by simp) (by simp))
    · rfl
  have recorded : (recordFault d s).undertone = s.undertone := undertone_of_eq (by simp) (by simp) (by simp)
  rw [← recorded, ← held, declareFault]
  exact undertone_of_eq (by simp) (by simp) (by simp)

/-! ### The offer of a claim -/

theorem reception_startSending (c : Settings) (a : Abu) : (a.startSending c).reception = a.reception := by
  unfold Abu.startSending
  split <;> rfl

theorem reception_deferUrgent (c : Settings) (start now : Nat) (a : Abu) :
    (a.deferUrgent c start now).reception = a.reception := by
  unfold Abu.deferUrgent
  dsimp only
  split
  · exact reception_startSending c _
  · rfl

theorem reception_beginDeferral (c : Settings) (now : Nat) (a : Abu) : (a.beginDeferral c now).reception = a.reception := by
  unfold Abu.beginDeferral
  split
  · rfl
  · split
    · exact reception_deferUrgent c now now a
    · rfl

theorem reception_afterTaking (c : Settings) (now : Nat) (urgent : Bool) (a : Abu) :
    (a.afterTaking c now urgent).reception = a.reception := by
  unfold Abu.afterTaking
  split
  case h_1 =>
    split
    · exact reception_beginDeferral c now a
    · rfl
  case h_2 => rfl
  case h_3 =>
    split
    · rfl
    · split
      · exact reception_deferUrgent c _ now a
      · rfl
  case h_4 => rfl

theorem reception_offerSingle (c : Settings) (now : Nat) (kind : TxKind) (body : List Byte) (a : Abu) :
    (a.offerSingle c now kind body).reception = a.reception := by
  unfold Abu.offerSingle Abu.offerNew
  split_ifs
  · rfl
  · exact reception_afterTaking _ _ _ _
  · rfl
  · exact reception_afterTaking _ _ _ _

theorem undertone_offerClaim (body : List Byte) (s : State) : (offerClaim body s).undertone = s.undertone := by
  have reception : (offerClaim body s).abu.reception = s.abu.reception := by
    unfold offerClaim offerToBus
    split
    · rfl
    · split
      · rfl
      · exact reception_offerSingle _ _ _ _ _
  rw [State.undertone, State.undertone, reception]
  simp

theorem undertone_openContest (c : Settings) (round : Nat) (p : Peak) (s : State) :
    (openContest c round p s).undertone = s.undertone := by
  unfold openContest
  split
  · exact undertone_of_eq (by simp) (by simp) (by simp)
  · exact undertone_offerClaim _ _

/-! ### Each consumer -/

theorem undertone_fastCheck (c : Settings) (i : StringIdx) (s : State) : (fastCheck c i s).undertone = s.undertone := by
  unfold fastCheck
  dsimp only
  split
  · split
    · rfl
    · exact undertone_declareFault c _ _
  · rfl

theorem undertone_arcTick (c : Settings) (s : State) : (arcTick c s).undertone = s.undertone := by
  unfold arcTick
  dsimp only
  split
  case h_1 =>
    split
    · split
      · rfl
      · exact undertone_openContest c 1 _ _
    · rfl
  case h_2 => rfl
  case h_3 =>
    split
    · exact undertone_openContest c 2 _ _
    · rfl
  case h_4 => rfl

theorem undertone_takeTickPart (c : Settings) (s : State) (part : TickPart) : (takeTickPart c s part).undertone = s.undertone := by
  cases part with
  | fastCheck i => exact undertone_fastCheck c i s
  | arcContest => exact undertone_arcTick c s
  | zeroBand i =>
    rw [takeTickPart, zeroBandSample]
    split
    · exact undertone_changePath _ _ _
    · rfl

theorem undertone_takeVerdict (c : Settings) (e : VerdictEntry) (s : State) : (takeVerdict c e s).undertone = s.undertone := by
  unfold takeVerdict
  dsimp only
  split
  case h_1 =>
    split_ifs
    · exact undertone_declareFault c _ _
    · rfl
    · rfl
  case h_2 => rfl
  case h_3 => rfl
  case h_4 => rfl

theorem undertone_takeArrival (c : Settings) (s : State) (a : Arrival) : (takeArrival c s a).undertone = s.undertone := by
  cases a with
  | tick part => exact undertone_takeTickPart c s part
  | verdicts set => exact foldl_keeps State.undertone _ (fun t e => undertone_takeVerdict c e t) set s
  | goodRun => exact undertone_of_eq (by simp [takeArrival]) (by simp [takeArrival]) (by simp [takeArrival])

theorem undertone_takeArrivals (s : State) : (takeArrivals s).undertone = s.undertone := by
  unfold takeArrivals
  split
  · rfl
  · exact foldl_keeps State.undertone _ (undertone_takeArrival _) _ _

theorem undertone_arrive (dt : Nat) (s : State) : (s.arrive dt).undertone = s.undertone := by
  have settled : s.settled.undertone = s.undertone := (undertone_takeDemands _).trans (undertone_takeArrivals s)
  rw [State.arrive, State.awaited]
  split
  · rfl
  · exact settled

theorem undertone_tickParts (c : Settings) (l : List TickPart) (s : State) : (l.foldl (takeTickPart c) s).undertone = s.undertone :=
  foldl_keeps State.undertone _ (undertone_takeTickPart c) l s

/-! ### The fields that are asked for -/

theorem fields_of_reception {a b : Abu} (h : a.reception = b.reception) :
    a.tally.valid = b.tally.valid ∧ a.tally.crcDiscard = b.tally.crcDiscard ∧ a.tally.byteDiscard = b.tally.byteDiscard ∧
    a.tally.headerIgnored = b.tally.headerIgnored ∧ a.tally.collisions = b.tally.collisions ∧
    a.tally.repliesSuperseded = b.tally.repliesSuperseded ∧ a.rx = b.rx ∧ a.taken = b.taken ∧ a.silent = b.silent := by
  simp only [Abu.reception, Abu.mk.injEq, Tally.mk.injEq] at h
  simp [h]

theorem read_of_outsideLockoutPage {m n : Nvs} (h : m.outsideLockoutPage = n.outsideLockoutPage) {a : Nat} (outside : a / 64 ≠ 2) :
    Memory.read m.store a = Memory.read n.store a := by
  have here := congrFun h a
  rw [Nvs.outsideLockoutPage, Nvs.outsideLockoutPage, if_neg outside, if_neg outside] at here
  exact Option.some.inj here

/-- The accumulator after a tick: beside its marks, the countdown alone has moved. -/
theorem besidesMarks_consumeTick (c : Settings) (order : TickOrder) (s : State) :
    (consumeTick c order s).wac.besidesMarks = (s.wac.countTick c).besidesMarks := by
  have marks : ∀ w : Wac, (w.countTick c).besidesMarks = w.besidesMarks.countTick c := fun w => by
    unfold Wac.countTick
    dsimp only [Wac.besidesMarks]
    split
    · rfl
    · split_ifs <;> rfl
  have parts := congrArg Prod.fst (undertone_tickParts c (tickSchedule order) s)
  dsimp only [State.undertone] at parts
  rw [marks, ← parts, ← marks]
  rfl

/-- The accumulator and the other two blocks after a due tick in RUN or SILENT. -/
theorem undertone_tick (c : Settings) (order : TickOrder) (raw : RawInputs) (s : State) :
    (endStep order.demandsWait (consumeTick c order (readInputs raw s))).undertone =
      ((s.wac.countTick c).besidesMarks, s.abu.reception, s.nvs.outsideLockoutPage) := by
  have parts := undertone_tickParts c (tickSchedule order) (readInputs raw s)
  rw [undertone_endStep, State.undertone, besidesMarks_consumeTick]
  simp only [State.undertone, Prod.mk.injEq, readInputs_leaves] at parts ⊢
  exact ⟨trivial, parts.2⟩

/-! ### The countdown (R9) -/

theorem countdown_of_besidesMarks {v w : Wac} (h : v.besidesMarks = w.besidesMarks) :
    v.countdown = w.countdown ∧ v.sampleDue = w.sampleDue := by
  simp only [Wac.besidesMarks, Wac.mk.injEq] at h
  simp [h]

section
variable {c : Settings} {w : Wac}

theorem countTick_of_none (idle : w.countdown = none) : w.countTick c = w := by simp [Wac.countTick, idle]

theorem countTick_of_more {n : Nat} (left : w.countdown = some n) (more : 2 ≤ n) :
    w.countTick c = { w with countdown := some (n - 1) } := by
  simp only [Wac.countTick, left]
  rw [if_neg (by omega)]

theorem countTick_of_last {n : Nat} (left : w.countdown = some n) (last : n ≤ 1) :
    w.countTick c = { w with countdown := some (c.sampleInterval / 10), sampleDue := true } := by
  simp only [Wac.countTick, left]
  rw [if_pos last]

/-- The countdown and the due mark alone move. -/
theorem countTick_leaves : (w.countTick c).means = w.means ∧ (w.countTick c).sums = w.sums ∧ (w.countTick c).boxSum = w.boxSum ∧
    (w.countTick c).count = w.count ∧ (w.countTick c).windowNumber = w.windowNumber ∧ (w.countTick c).boxValid = w.boxValid := by
  unfold Wac.countTick
  split
  · simp
  · split_ifs <;> simp

end

/-- A protection tick, one way or the other: before its time it lets time pass, in UNCOMMISSIONED it reads the inputs, and else its
consumers act. -/
theorem exec_protectionTick_cases {dt : Nat} {raw : RawInputs} {order : TickOrder} {start t : State}
    (run : exec (.protectionTick dt raw order) start = .next t) :
    ((start.arrive dt).timeUs < (start.arrive dt).sfe.nextTick ∧ t = start.arrive dt) ∨
    ((start.arrive dt).sfe.nextTick ≤ (start.arrive dt).timeUs ∧ start.settings = none ∧
      t = readInputs raw (takeArrivals (start.arrive dt))) ∨
    ((start.arrive dt).sfe.nextTick ≤ (start.arrive dt).timeUs ∧ ∃ c, start.settings = some c ∧
      t = endStep order.demandsWait (consumeTick c order (readInputs raw (takeArrivals (start.arrive dt))))) := by
  rw [exec_protectionTick, execProtectionTick] at run
  dsimp only at run
  have settings : (readInputs raw (takeArrivals (start.arrive dt))).settings = start.settings := by simp
  split at run
  case isFalse early => exact .inl ⟨Nat.lt_of_not_le early, (Host.Outcome.next.inj run).symm⟩
  case isTrue due =>
    refine .inr ?_
    split at run
    case h_1 unset => exact .inl ⟨due, settings ▸ unset, (Host.Outcome.next.inj run).symm⟩
    case h_2 c set' => exact .inr ⟨due, c, settings ▸ set', (Host.Outcome.next.inj run).symm⟩

/-- A tick in any mode and at any time, to the three blocks it reaches in passing. -/
theorem undertone_protectionTick {dt : Nat} {raw : RawInputs} {order : TickOrder} {start t : State}
    (run : exec (.protectionTick dt raw order) start = .next t) :
    ∃ w : Wac, t.wac.besidesMarks = w.besidesMarks ∧ w.means = start.wac.means ∧ w.sums = start.wac.sums ∧
      w.boxSum = start.wac.boxSum ∧ w.count = start.wac.count ∧ w.windowNumber = start.wac.windowNumber ∧
      w.boxValid = start.wac.boxValid ∧ t.abu.reception = start.abu.reception ∧
      t.nvs.outsideLockoutPage = start.nvs.outsideLockoutPage := by
  have arrived := undertone_arrive dt start
  have taken := (undertone_takeArrivals (start.arrive dt)).trans arrived
  simp only [State.undertone, Prod.mk.injEq] at arrived taken
  rcases exec_protectionTick_cases run with ⟨-, rfl⟩ | ⟨-, -, rfl⟩ | ⟨-, c, -, rfl⟩
  · obtain ⟨wac, abu, nvs⟩ := arrived
    exact ⟨start.wac, wac, rfl, rfl, rfl, rfl, rfl, rfl, abu, nvs⟩
  · obtain ⟨wac, abu, nvs⟩ := taken
    refine ⟨start.wac, ?_, rfl, rfl, rfl, rfl, rfl, rfl, ?_, ?_⟩ <;> simpa only [readInputs_leaves]
  · obtain ⟨wac, abu, nvs⟩ := taken
    have tick := undertone_tick c order raw (takeArrivals (start.arrive dt))
    simp only [State.undertone, Prod.mk.injEq] at tick
    obtain ⟨means, sums, boxSum, count, number, valid⟩ := countTick_leaves (c := c) (w := (takeArrivals (start.arrive dt)).wac)
    obtain ⟨sums', boxSum', count', -, number', means', runs⟩ := fields_of_besidesMarks wac
    exact ⟨_, tick.1, means.trans means', sums.trans sums', boxSum.trans boxSum', count.trans count', number.trans number',
      valid.trans (congrArg Prod.fst runs), tick.2.1.trans abu, tick.2.2.trans nvs⟩

/-! ### The window sample (R10 to R12) -/

theorem exec_windowSample_of_not_due {dt : Nat} {start s : State} (arrives : start.arrive dt = s)
    (idle : s.wac.sampleDue = false ∨ 64 ≤ s.wac.count) : exec (.windowSample dt) start = .next s := by
  subst arrives
  dsimp only [exec, execWindowSample]
  rw [if_neg]
  rintro ⟨due, more⟩
  rcases idle with idle | full
  · simp [idle] at due
  · omega

theorem exec_windowSample_of_due {dt : Nat} {start s : State} (arrives : start.arrive dt = s)
    (due : s.wac.sampleDue = true) (more : s.wac.count < 64) :
    exec (.windowSample dt) start =
      .next (s.withWac (s.wac.addSample s.sfe fun i => decide ((s.path i).state = .closed)).endWindow) := by
  subst arrives
  dsimp only [exec, execWindowSample]
  rw [if_pos ⟨due, more⟩]

end Sys2Proof.Machine

namespace Sys2Proof.Proofs

open Sys2Proof Sys2Proof.Machine

/-- Settles O11: what a tick leaves is left by every arrival, every open demand and every consumer. -/
theorem tickFrame : Obligations.TickFrame := by
  intro dt raw order start t run
  obtain ⟨w, marks, means, sums, boxSum, count, number, valid, reception, outside⟩ := undertone_protectionTick run
  obtain ⟨sums', boxSum', count', -, number', means', runs⟩ := fields_of_besidesMarks marks
  have valid' : t.wac.boxValid = w.boxValid := congrArg Prod.fst runs
  obtain ⟨validCount, crc, byte, header, collisions, superseded, rx, taken, silent⟩ := fields_of_reception reception
  have frame : t.settings = start.settings ∧ t.ptb = start.ptb ∧ t.rfu = start.rfu ∧ t.requests = start.requests ∧
      t.svl = start.svl ∧ t.hld.shutdown = start.hld.shutdown ∧ t.hld.pageLost = start.hld.pageLost := by
    rcases exec_protectionTick_cases run with ⟨-, rfl⟩ | ⟨-, -, rfl⟩ | ⟨-, c, -, rfl⟩ <;> simp [readInputs]
  obtain ⟨settings, ptb, rfu, requests, svl, shutdown, pageLost⟩ := frame
  refine ⟨settings, ptb, rfu, requests, svl, shutdown, pageLost, means'.trans means, sums'.trans sums, boxSum'.trans boxSum,
    count'.trans count, number'.trans number, valid'.trans valid, validCount, crc, byte, header, collisions, superseded, rx, taken,
    silent, fun a => read_of_outsideLockoutPage outside, fun unset due => ?_, fun early => ?_⟩
  · rcases exec_protectionTick_cases run with ⟨early, -⟩ | ⟨-, -, rfl⟩ | ⟨-, c, set', -⟩
    · omega
    · rfl
    · rw [unset] at set'
      cases set'
  · rcases exec_protectionTick_cases run with ⟨-, same⟩ | ⟨due, -, -⟩ | ⟨due, -, -, -⟩
    · exact same
    · omega
    · omega

/-- Settles O17: the countdown by its three rows, and the sample by the count before it. -/
theorem windowSampleAddsEveryCurrent : Obligations.WindowSampleAddsEveryCurrent := by
  refine ⟨fun dt raw order start c => ?_, fun dt start => ?_⟩
  · intro s settings due
    have taken : (takeArrivals s).wac.besidesMarks = s.wac.besidesMarks := congrArg Prod.fst (undertone_takeArrivals s)
    have settings' : (takeArrivals s).settings = some c := by simpa using settings
    have due' : (takeArrivals s).sfe.nextTick ≤ (takeArrivals s).timeUs := by simpa using due
    refine ⟨_, exec_protectionTick_of_due rfl settings' due', ?_⟩
    have tick : (endStep order.demandsWait (consumeTick c order (readInputs raw (takeArrivals s)))).wac.besidesMarks = _ :=
      congrArg Prod.fst (undertone_tick c order raw (takeArrivals s))
    obtain ⟨countdown, sampleDue⟩ := countdown_of_besidesMarks taken
    rw [← countdown, ← sampleDue]
    refine ⟨fun idle => ?_, fun n left more => ?_, fun n left last => ?_⟩
    · rw [countTick_of_none idle] at tick
      obtain ⟨kept, mark⟩ := countdown_of_besidesMarks tick
      exact ⟨kept.trans idle, mark⟩
    · rw [countTick_of_more left more] at tick
      exact countdown_of_besidesMarks tick
    · rw [countTick_of_last left last] at tick
      exact countdown_of_besidesMarks tick
  · dsimp only
    generalize arrives : start.arrive dt = s
    refine ⟨exec_windowSample_of_not_due arrives, fun due more => ?_⟩
    let added := s.wac.addSample s.sfe fun i => decide ((s.path i).state = .closed)
    refine ⟨added.sums, added.closedThroughout, fun short => ?_, fun last => ?_, fun i => ⟨?_, ?_⟩⟩
    · rw [exec_windowSample_of_due arrives due more, Wac.endWindow, if_neg]
      · rfl
      · dsimp only [Wac.addSample]
        omega
    · rw [exec_windowSample_of_due arrives due more, Wac.endWindow, if_pos]
      · rfl
      · dsimp only [Wac.addSample]
        omega
    · simp [added, Wac.addSample]
    · simp [added, Wac.addSample]

end Sys2Proof.Proofs
end

section
/-! Proofs: the choice of a string, the opening of a contest and the contest's deadlines (R101, R104, R106, R107, R109 to R112). -/

namespace Sys2Proof.Machine

/-! ### The choice (R101) -/

section
variable {shares : PerString Nat} {candidate : StringIdx → Bool}

/-- One candidate considered after the best so far. -/
def considerString (shares : PerString Nat) (candidate : StringIdx → Bool) (best : Option StringIdx) (i : StringIdx) :
    Option StringIdx :=
  if candidate i then
    match best with
    | none => some i
    | some j => if shares[j] < shares[i] then some i else some j
  else best

theorem chooseString_eq : chooseString shares candidate = StringIdx.all.foldl (considerString shares candidate) none := rfl

/-- `best` is the choice among the strings of a list. -/
def IsChoice (shares : PerString Nat) (candidate : StringIdx → Bool) (l : List StringIdx) : Option StringIdx → Prop
  | none => ∀ j ∈ l, candidate j = false
  | some i => candidate i = true ∧ i ∈ l ∧ ∀ j ∈ l, candidate j = true → shares[j] < shares[i] ∨ (shares[j] = shares[i] ∧ i ≤ j)

/-- One candidate more, of a greater index than all before it: it is chosen over the best so far by a greater share alone. -/
theorem isChoice_considerString {l : List StringIdx} {best : Option StringIdx} {i : StringIdx} (last : ∀ j ∈ l, j < i)
    (sofar : IsChoice shares candidate l best) :
    IsChoice shares candidate (l ++ [i]) (considerString shares candidate best i) := by
  unfold considerString
  split
  case isFalse out =>
    have out : candidate i = false := Bool.eq_false_iff.2 out
    cases best with
    | none =>
      intro j mem
      rcases List.mem_append.1 mem with old | new
      · exact sofar j old
      · rwa [List.mem_singleton.1 new]
    | some k =>
      obtain ⟨chosen, listed, best⟩ := sofar
      refine ⟨chosen, List.mem_append_left _ listed, fun j mem candidate => ?_⟩
      rcases List.mem_append.1 mem with old | new
      · exact best j old candidate
      · rw [List.mem_singleton.1 new, out] at candidate
        cases candidate
  case isTrue in' =>
    cases best with
    | none =>
      refine ⟨in', by simp, fun j mem candidate => ?_⟩
      rcases List.mem_append.1 mem with old | new
      · rw [sofar j old] at candidate
        cases candidate
      · rw [List.mem_singleton.1 new]
        exact .inr ⟨rfl, le_rfl⟩
    | some k =>
      obtain ⟨chosen, listed, best⟩ := sofar
      dsimp only
      split
      case isTrue louder =>
        refine ⟨in', by simp, fun j mem candidate => ?_⟩
        rcases List.mem_append.1 mem with old | new
        · have := best j old candidate
          omega
        · rw [List.mem_singleton.1 new]
          exact .inr ⟨rfl, le_rfl⟩
      case isFalse quieter =>
        refine ⟨chosen, List.mem_append_left _ listed, fun j mem candidate => ?_⟩
        rcases List.mem_append.1 mem with old | new
        · exact best j old candidate
        · rw [List.mem_singleton.1 new]
          have before := last k listed
          rcases Nat.lt_or_eq_of_le (Nat.not_lt.1 quieter) with less | same
          · exact .inl less
          · exact .inr ⟨same, le_of_lt before⟩

theorem isChoice_foldl (l : List StringIdx) (ascending : l.Pairwise (· < ·)) :
    IsChoice shares candidate l (l.foldl (considerString shares candidate) none) := by
  induction l using List.reverseRecOn with
  | nil => exact fun j mem => absurd mem List.not_mem_nil
  | append_singleton l i ih =>
    obtain ⟨before, -, last⟩ := List.pairwise_append.1 ascending
    rw [List.foldl_append, List.foldl_cons, List.foldl_nil]
    exact isChoice_considerString (fun j mem => last j mem i (List.mem_singleton.2 rfl)) (ih before)

/-- The choice among all strings. -/
theorem isChoice_chooseString : IsChoice shares candidate StringIdx.all (chooseString shares candidate) :=
  isChoice_foldl _ (by decide)

theorem chooseString_eq_none_iff : chooseString shares candidate = none ↔ ∀ i, candidate i = false := by
  have choice := isChoice_chooseString (shares := shares) (candidate := candidate)
  cases chosen : chooseString shares candidate with
  | none =>
    rw [chosen] at choice
    exact ⟨fun _ i => choice i (StringIdx.mem_all i), fun _ => rfl⟩
  | some k =>
    rw [chosen] at choice
    refine ⟨(fun absurd => by cases absurd), fun none => ?_⟩
    have := choice.1
    rw [none k] at this
    cases this

theorem chooseString_eq_some_iff {i : StringIdx} : chooseString shares candidate = some i ↔
    candidate i = true ∧ ∀ j, candidate j = true → shares[j] < shares[i] ∨ (shares[j] = shares[i] ∧ i ≤ j) := by
  have choice := isChoice_chooseString (shares := shares) (candidate := candidate)
  cases chosen : chooseString shares candidate with
  | none =>
    rw [chosen] at choice
    refine ⟨(fun absurd => by cases absurd), fun ⟨in', _⟩ => ?_⟩
    rw [choice i (StringIdx.mem_all i)] at in'
    cases in'
  | some k =>
    rw [chosen] at choice
    obtain ⟨in', -, best⟩ := choice
    refine ⟨fun same => ?_, fun ⟨in'', best'⟩ => ?_⟩
    · cases same
      exact ⟨in', fun j candidate => best j (StringIdx.mem_all j) candidate⟩
    · have one := best i (StringIdx.mem_all i) in''
      have other := best' k in'
      rw [Option.some.injEq]
      rcases one with less | ⟨same, low⟩
      · omega
      · rcases other with less | ⟨-, high⟩
        · omega
        · exact le_antisymm low high

end

theorem present_iff {s : State} {i : StringIdx} : s.present i = true ↔ ∃ c, s.settings = some c ∧ c.strings[i].present = true := by
  unfold State.present
  cases s.settings <;> simp

theorem arcCandidate_iff {s : State} {i : StringIdx} : s.arcCandidate i = true ↔
    s.present i = true ∧ ((s.path i).state = .closed ∨ (s.path i).state = .closing) := by
  rw [State.arcCandidate, Bool.and_eq_true, connected_iff]

/-! ### The best rival of a list (R106) -/

/-- `best` is the strongest rival of a list: the greatest score, the lowest station among equals. -/
def IsBestRival (l : List Rival) : Option BestRival → Prop
  | none => l = []
  | some b => (∃ r ∈ l, r.station = b.station ∧ r.score = b.score) ∧
      ∀ r ∈ l, r.score < b.score ∨ (r.score = b.score ∧ b.station ≤ r.station)

theorem isBestRival_compareRival {l : List Rival} {best : Option BestRival} (r : Rival) (sofar : IsBestRival l best) :
    IsBestRival (l ++ [r]) (compareRival r.station r.score best) := by
  cases best with
  | none =>
    subst sofar
    refine ⟨⟨r, by simp, rfl, rfl⟩, fun q mem => ?_⟩
    rw [List.mem_singleton.1 mem]
    exact .inr ⟨rfl, le_rfl⟩
  | some b =>
    obtain ⟨⟨q, listed, station, score⟩, best⟩ := sofar
    dsimp only [compareRival]
    split
    case isTrue stronger =>
      refine ⟨⟨r, by simp, rfl, rfl⟩, fun p mem => ?_⟩
      rcases List.mem_append.1 mem with old | new
      · have := best p old
        dsimp only
        omega
      · rw [List.mem_singleton.1 new]
        exact .inr ⟨rfl, le_rfl⟩
    case isFalse weaker =>
      refine ⟨⟨q, List.mem_append_left _ listed, station, score⟩, fun p mem => ?_⟩
      rcases List.mem_append.1 mem with old | new
      · exact best p old
      · rw [List.mem_singleton.1 new]
        omega

/-- The best rival at an opening. -/
def strongestRival (l : List Rival) : Option BestRival := l.foldl (fun b r => compareRival r.station r.score b) none

theorem isBestRival_strongestRival (l : List Rival) : IsBestRival l (strongestRival l) := by
  unfold strongestRival
  induction l using List.reverseRecOn with
  | nil => rfl
  | append_singleton l r ih =>
    rw [List.foldl_append, List.foldl_cons, List.foldl_nil]
    exact isBestRival_compareRival r ih

/-! ### The opening of a contest (R105, R107, R111) -/

/-- The offer of a claim in RUN; in SILENT there is none. -/
theorem offerClaim_of_settings {c : Settings} {s : State} (body : List Byte) (settings : s.settings = some c) :
    (offerClaim body s).abu = (if s.abu.silent then s.abu else s.abu.offerSingle c s.timeUs .arcClaim body) ∧
      (offerClaim body s).acu = s.acu ∧ (offerClaim body s).boxTrip = s.boxTrip := by
  refine ⟨?_, by simp, by simp⟩
  simp only [offerClaim, offerToBus, settings]
  split <;> rfl

theorem setLatch_writes (s : State) : (setLatch s).acu = { s.acu with latch := true } ∧
    (s.acu.latch = false → (setLatch s).boxTrip = true) := by
  unfold setLatch
  split
  case isTrue set' =>
    refine ⟨?_, fun clear => ?_⟩
    · rw [← set']
    · rw [clear] at set'
      cases set'
  case isFalse clear => exact ⟨rfl, fun _ => rfl⟩

section
variable {c : Settings} {s : State} {round : Nat} {p : Peak}

theorem openContest_of_choice {i : StringIdx} (settings : s.settings = some c) (chosen : chooseString p.shares s.arcCandidate = some i) :
    (openContest c round p s).acu =
        { s.acu with contest := .contest round p i (s.nowMs + ms c.contestWindow) (strongestRival s.acu.rivals) } ∧
      (openContest c round p s).abu = (if s.abu.silent then s.abu else s.abu.offerSingle c s.timeUs .arcClaim
        [byteOf round, 1, byteOf (p.score / 256), byteOf p.score, byteOf (i.val + 1)]) ∧
      (openContest c round p s).boxTrip = s.boxTrip := by
  unfold openContest
  simp only [chosen]
  obtain ⟨abu, acu, boxTrip⟩ := offerClaim_of_settings (c := c)
    (s := s.withAcu { s.acu with contest := .contest round p i (s.nowMs + ms c.contestWindow) (strongestRival s.acu.rivals) })
    (claimBody round 1 p.score i) settings
  exact ⟨acu, abu, boxTrip⟩

theorem openContest_of_no_choice (none' : chooseString p.shares s.arcCandidate = none) :
    (openContest c round p s).acu = { s.acu with contest := .idle, latch := true } ∧
      (s.acu.latch = false → (openContest c round p s).boxTrip = true) ∧ (openContest c round p s).abu = s.abu := by
  unfold openContest
  simp only [none']
  obtain ⟨acu, boxTrip⟩ := setLatch_writes (s.withAcu { s.acu with contest := .idle })
  exact ⟨acu, boxTrip, by simp⟩

end

/-! ### The commands of the deadlines -/

section
variable {dt : Nat} {start s : State} {c : Settings} (arrives : start.arrive dt = s)
include arrives

theorem exec_resolutionDeadline (settings : s.settings = some c) : exec (.resolutionDeadline dt) start = .next (resolve c s) := by
  simp only [exec, execResolutionDeadline, arrives, settings]

theorem exec_quietPeriodEnd :
    exec (.quietPeriodEnd dt) start = .next (s.withAcu { s.acu with contest := s.acu.contest.afterQuiet s.nowMs }) := by
  simp only [exec, execQuietPeriodEnd, arrives]

theorem exec_settleEnd :
    exec (.settleEnd dt) start = .next (s.withAcu { s.acu with contest := s.acu.contest.afterSettle s.nowMs }) := by
  simp only [exec, execSettleEnd, arrives]

theorem exec_rivalExpiry (settings : s.settings = some c) (station : Nat) :
    exec (.rivalExpiry dt station) start = .next (s.withAcu { s.acu with rivals := expireRival c s.nowMs station s.acu.rivals }) := by
  simp only [exec, execRivalExpiry, arrives, settings]

end

section
variable {c : Settings} {s : State} {n : Nat} {d : Ms} {quiet : Option Ms}

theorem resolve_of_quiet (yielded : s.acu.contest = .yielded n (some d) quiet) (due : reached s.nowMs d = true)
    (low : s.sfe.score ≤ c.arcThreshold) : resolve c s = s.withAcu { s.acu with contest := .yielded n none quiet } := by
  simp only [resolve, yielded, due, if_true]
  rw [if_neg (Nat.not_lt.2 low)]

theorem resolve_of_loud (yielded : s.acu.contest = .yielded n (some d) quiet) (due : reached s.nowMs d = true)
    (high : c.arcThreshold < s.sfe.score) : resolve c s = openContest c 2 s.sfe.peak s := by
  simp only [resolve, yielded, due, if_true]
  rw [if_pos high]

end

end Sys2Proof.Machine

namespace Sys2Proof.Proofs

open Sys2Proof Sys2Proof.Machine

/-- Settles O16. -/
theorem choiceTakesTheGreatestShare : Obligations.ChoiceTakesTheGreatestShare := by
  refine ⟨fun shares candidate => ⟨chooseString_eq_none_iff, fun i => chooseString_eq_some_iff⟩, fun s i => ?_⟩
  rw [← present_iff]
  refine ⟨arcCandidate_iff, ?_⟩
  rw [State.replacementCandidate, Bool.and_eq_true, decide_eq_true_eq]

/-- Settles O36: each deadline by the state it ends. -/
theorem contestDeadlinesEndTheirStates : Obligations.ContestDeadlinesEndTheirStates := by
  intro dt start c
  dsimp only
  generalize arrives : start.arrive dt = s
  intro settings
  refine ⟨fun n d quiet yielded due => ⟨fun low => ?_, fun high => ⟨_, exec_resolutionDeadline arrives settings, ?_, ?_⟩⟩,
    fun n resolution q yielded due => ?_, fun d settle due => ?_, fun station => exec_rivalExpiry arrives settings station⟩
  · rw [exec_resolutionDeadline arrives settings, resolve_of_quiet yielded due low]
  · intro i chosen
    rw [resolve_of_loud yielded due high]
    obtain ⟨acu, abu, -⟩ := openContest_of_choice (round := 2) (p := s.sfe.peak) settings chosen
    rw [acu]
    exact ⟨⟨_, rfl⟩, abu⟩
  · intro none'
    rw [resolve_of_loud yielded due high]
    obtain ⟨acu, boxTrip, abu⟩ := openContest_of_no_choice (c := c) (round := 2) (p := s.sfe.peak) none'
    rw [acu]
    exact ⟨rfl, rfl, boxTrip, abu⟩
  · rw [exec_quietPeriodEnd arrives, yielded, Contest.afterQuiet, if_pos due]
  · rw [exec_settleEnd arrives, settle, Contest.afterSettle, if_pos due]

end Sys2Proof.Proofs
end

section
/-! Proofs: the end of a contest window (R106, R108). -/

namespace Sys2Proof.Machine

section
variable {c : Settings} {s : State} {own : Peak} {chosen : StringIdx}

theorem exec_contestWindowEnd {at' : ContestEnd} {start : State} (arrives : start.arrive at'.dt = s) (settings : s.settings = some c) :
    exec (.contestWindowEnd at') start = .next (endStep at'.demandsWait (decideContest c s)) := by
  simp only [exec, execContestWindowEnd, arrives, settings]

/-! ### The decision -/

theorem beaten_eq (best : Option BestRival) :
    beaten c own best = best.any fun r => own.score < r.score || (r.score = own.score && r.station < c.station) := by
  cases best <;> rfl

section
variable {round : Nat} {windowEnd : Ms} {best : Option BestRival}
  (contest : s.acu.contest = .contest round own chosen windowEnd best) (due : reached s.nowMs windowEnd = true)
include contest due

theorem decideContest_of_beaten (first : round = 1) (loses : beaten c own best = true) :
    decideContest c s = s.withAcu { s.acu with contest := .yielded 1 (some (s.nowMs + ms 2000)) none } := by
  simp only [decideContest, contest, due, if_true]
  rw [if_pos ⟨first, loses⟩]

theorem decideContest_of_won (wins : round ≠ 1 ∨ beaten c own best = false) : decideContest c s = winContest c round own chosen s := by
  simp only [decideContest, contest, due, if_true]
  rw [if_neg]
  rintro ⟨first, loses⟩
  rcases wins with later | unbeaten
  · exact later first
  · rw [unbeaten] at loses
    cases loses

end

theorem winningString_eq_some_iff {i : StringIdx} : winningString own chosen s = some i ↔
    ((s.path chosen).connected = true ∧ i = chosen) ∨
      ((s.path chosen).connected = false ∧ chooseString own.shares s.replacementCandidate = some i) := by
  unfold winningString
  cases (s.path chosen).connected <;> simp [eq_comm]

/-- The string a won contest opens is CLOSED or CLOSING. -/
theorem connected_of_winningString {i : StringIdx} (wins : winningString own chosen s = some i) : (s.path i).connected = true := by
  rcases winningString_eq_some_iff.1 wins with ⟨connected, same⟩ | ⟨-, replaced⟩
  · rwa [same]
  · have candidate := (chooseString_eq_some_iff.1 replaced).1
    rw [State.replacementCandidate, Bool.and_eq_true, decide_eq_true_eq] at candidate
    exact connected_iff.2 (.inl candidate.2)

/-! ### The opening of the string -/

/-- A demand on a string in CLOSED or CLOSING begins an opening. -/
theorem demanded_of_connected {now : Ms} {reason : Reason} {n : Nat} {p : Path} (connected : p.connected = true) :
    ∃ level, p.demanded now reason n = p.beginOpening now reason n level := by
  rcases connected_iff.1 connected with closed | closing
  · exact ⟨255, by simp only [Path.demanded, closed]⟩
  · exact ⟨p.level, by simp only [Path.demanded, closing]⟩

theorem rampDownSteps_one (level : Nat) : rampDownSteps level 1 = 1 := by
  obtain ⟨low, high⟩ := rampDownSteps_range level (n := 1) le_rfl
  exact le_antisymm high low

/-- The part once the contest has settled, before anything is opened. -/
def State.settledContest (s : State) : State := s.withAcu { s.acu with contest := .settle (s.nowMs + ms 500) }

theorem winContest_of_string {round : Nat} {i : StringIdx} (wins : winningString own chosen s = some i) :
    winContest c round own chosen s =
      offerClaim (claimBody round 2 own.score i) (declareFault c (arcFault i own.score) s.settledContest) := by
  simp only [winContest, wins]
  rfl

theorem winContest_of_none {round : Nat} (none' : winningString own chosen s = none) :
    winContest c round own chosen s = setLatch s.settledContest := by
  simp only [winContest, none']
  rfl

/-- The Arc contest unit after a won contest that opens a string. -/
theorem acu_winContest_of_string {round : Nat} {i : StringIdx} (wins : winningString own chosen s = some i) :
    (winContest c round own chosen s).acu = { s.acu with contest := .settle (s.nowMs + ms 500) } ∧
      (winContest c round own chosen s).boxTrip = s.boxTrip := by
  rw [winContest_of_string wins]
  simp [State.settledContest]

/-- The record, the demand, the claim and the hold of a won contest. -/
theorem winContest_opens {round : Nat} {i : StringIdx} (settings : s.settings = some c) (wins : winningString own chosen s = some i) :
    let u := winContest c round own chosen s
    u.flg.records.getLast? = some (recordOf (arcFault i own.score) s.flg.nextSeq s.seconds s.nowMs) ∧
    u.demands = s.demands ++ [⟨i, .fault .arc, 1⟩] ∧
    u.abu = (if s.abu.silent then s.abu else s.abu.offerSingle c s.timeUs .arcClaim
      [byteOf round, 2, byteOf (own.score / 256), byteOf own.score, byteOf (i.val + 1)]) ∧
    (c.strings[i].present = true → (u.hold i).lockout = true) ∧ ∀ j, j ≠ i → u.hold j = s.hold j := by
  have held (j : StringIdx) : (declareFault c (arcFault i own.score) s.settledContest).hold j =
      if j = i then (if s.present j = true then (s.hold j).consequence c s.nowMs .lockout else s.hold j) else s.hold j :=
    hold_declareFault _ _ _ _
  have shown : (declareFault c (arcFault i own.score) s.settledContest).settings = some c := by
    simpa [State.settledContest] using settings
  rw [winContest_of_string wins]
  dsimp only
  refine ⟨?_, ?_, ?_, fun present => ?_, fun j other => ?_⟩
  · simp only [offerClaim_frame, flg_declareFault]
    rw [flg_recordFault_none rfl, append_getLast]
    rfl
  · simp only [offerClaim_frame, demands_declareFault]
    rfl
  · rw [(offerClaim_of_settings _ shown).1]
    simp only [declareFault_frame, State.settledContest]
    rfl
  · simp only [offerClaim_frame]
    rw [held, if_pos rfl, if_pos (present_iff.2 ⟨c, settings, present⟩), consequence_lockout]
  · simp only [offerClaim_frame]
    rw [held, if_neg other]

/-- The one demand of a won contest, once it has been taken. -/
theorem winContest_opens_path {round : Nat} {i : StringIdx} (settings : s.settings = some c)
    (wins : winningString own chosen s = some i) (quiet : s.demands = []) :
    let t := endStep false (winContest c round own chosen s)
    (t.path i).state = .opening ∧ (t.path i).stepCount = some 1 ∧ (t.path i).stepsLeft = some 1 ∧
      (t.path i).reason = some (.fault .arc) ∧ ∀ j, j ≠ i → t.path j = s.path j := by
  obtain ⟨-, demands, -⟩ := winContest_opens (round := round) settings wins
  have path (j : StringIdx) : (winContest c round own chosen s).path j = s.path j := by simp
  have after (j : StringIdx) := path_takeDemands (winContest c round own chosen s) j
  rw [demands, quiet] at after
  obtain ⟨level, opens⟩ := demanded_of_connected (now := (winContest c round own chosen s).nowMs) (reason := .fault .arc) (n := 1)
    (connected_of_winningString wins)
  have opened : (takeDemands (winContest c round own chosen s)).path i =
      (s.path i).beginOpening (winContest c round own chosen s).nowMs (.fault .arc) 1 level := by
    rw [after i, path i, ← opens]
    simp
  refine ⟨?_, ?_, ?_, ?_, fun j other => ?_⟩
  · exact (congrArg Path.state opened).trans rfl
  · exact (congrArg Path.stepCount opened).trans rfl
  · exact (congrArg Path.stepsLeft opened).trans (congrArg some (rampDownSteps_one level))
  · exact (congrArg Path.reason opened).trans rfl
  · refine (after j).trans ?_
    rw [path j]
    simp [other.symm]

end

end Sys2Proof.Machine

namespace Sys2Proof.Proofs

open Sys2Proof Sys2Proof.Machine

/-- Settles O35: yielded, won with a string to open, and won without. -/
theorem contestWindowEndDecides : Obligations.ContestWindowEndDecides := by
  intro at' start c round own chosen windowEnd best
  dsimp only
  generalize arrives : start.arrive at'.dt = s
  intro settings contest due
  rw [← beaten_eq, exec_contestWindowEnd arrives settings]
  refine ⟨fun first loses => by rw [decideContest_of_beaten contest due first loses], fun won => ?_⟩
  rw [decideContest_of_won contest due won]
  have acu : (winContest c round own chosen s).acu.contest = .settle (s.nowMs + ms 500) ∧
      (winContest c round own chosen s).acu.rivals = s.acu.rivals ∧
      (winContest c round own chosen s).acu.alarmRun = s.acu.alarmRun := by
    cases wins : winningString own chosen s with
    | none =>
      rw [winContest_of_none wins, (setLatch_writes _).1]
      exact ⟨rfl, rfl, rfl⟩
    | some i =>
      rw [(acu_winContest_of_string wins).1]
      exact ⟨rfl, rfl, rfl⟩
  obtain ⟨settle, rivals, alarm⟩ := acu
  refine ⟨_, rfl, settle, by simp, rivals, alarm, fun i opens => ?_, fun apart none' => ?_⟩
  · have wins := winningString_eq_some_iff.2 opens
    obtain ⟨record, demands, abu, lockout, others⟩ := winContest_opens (round := round) settings wins
    obtain ⟨acu, boxTrip⟩ := acu_winContest_of_string (c := c) (round := round) wins
    exact ⟨⟨_, record, rfl, rfl, rfl, rfl, rfl, rfl⟩, demands, abu, lockout, others, by rw [acu], boxTrip,
      winContest_opens_path settings wins⟩
  · have wins : winningString own chosen s = none := by
      rw [winningString, if_neg (by rw [apart]; decide), none']
    obtain ⟨acu, boxTrip⟩ := setLatch_writes s.settledContest
    rw [winContest_of_none wins]
    exact ⟨congrArg Acu.latch acu, boxTrip, by simp [State.settledContest], by simp [State.settledContest],
      by simp [State.settledContest], by simp [State.settledContest]⟩

end Sys2Proof.Proofs
end

section
/-! Proofs: the Arc contest unit on a tick, contest record by contest record (R100, R105 to R112). -/

namespace Sys2Proof.Machine

/-! ### The unit takes the tick once, whatever the order -/

/-- Two states agree in all that the Arc contest unit reads and writes. -/
def SameContest (s t : State) : Prop :=
  t.settings = s.settings ∧ t.timeUs = s.timeUs ∧ t.sfe = s.sfe ∧ t.acu = s.acu ∧ t.abu = s.abu ∧ t.boxTrip = s.boxTrip ∧
    t.arcCandidate = s.arcCandidate

theorem SameContest.refl (s : State) : SameContest s s := ⟨rfl, rfl, rfl, rfl, rfl, rfl, rfl⟩

theorem SameContest.trans {s t u : State} (first : SameContest s t) (second : SameContest t u) : SameContest s u := by
  obtain ⟨settings, time, sfe, acu, abu, boxTrip, candidate⟩ := first
  obtain ⟨settings', time', sfe', acu', abu', boxTrip', candidate'⟩ := second
  exact ⟨settings'.trans settings, time'.trans time, sfe'.trans sfe, acu'.trans acu, abu'.trans abu, boxTrip'.trans boxTrip,
    candidate'.trans candidate⟩

theorem sameContest_takeTickPart (c : Settings) (s : State) {part : TickPart} (other : part ≠ .arcContest) :
    SameContest s (takeTickPart c s part) := by
  cases part with
  | arcContest => exact absurd rfl other
  | fastCheck i => exact ⟨by simp, by simp, by simp, by simp [takeTickPart], by simp [takeTickPart], by simp [takeTickPart],
      funext fun k => by simp [takeTickPart, State.arcCandidate]⟩
  | zeroBand i => exact ⟨by simp, by simp, by simp, by simp [takeTickPart], by simp [takeTickPart], by simp [takeTickPart],
      funext fun k => by simp [takeTickPart, State.arcCandidate, connected_zeroBandSample]⟩

theorem sameContest_tickParts (c : Settings) {l : List TickPart} (others : .arcContest ∉ l) (s : State) :
    SameContest s (l.foldl (takeTickPart c) s) := by
  induction l generalizing s with
  | nil => exact .refl s
  | cons part l ih =>
    rw [List.mem_cons, not_or] at others
    exact (sameContest_takeTickPart c s (Ne.symm others.1)).trans (ih others.2 _)

theorem sameContest_consumeTick_of_late {c : Settings} {order : TickOrder} (late : .arcContest ∈ order.late) (s : State) :
    SameContest s (consumeTick c order s) := by
  have scheduled : TickPart.arcContest ∉ tickSchedule order := fun mem => (mem_tickSchedule _ _).1 mem late
  exact sameContest_tickParts c scheduled s

/-- Before the unit takes the tick nothing that it reads has changed, and nothing that it wrote changes after. -/
theorem sameContest_consumeTick {c : Settings} {order : TickOrder} (onTime : .arcContest ∉ order.late) (s : State) :
    ∃ u, SameContest s u ∧ SameContest (arcTick c u) (consumeTick c order s) := by
  obtain ⟨before, after, split⟩ := List.append_of_mem ((mem_tickSchedule order .arcContest).2 onTime)
  have nodup := nodup_tickSchedule order
  rw [split, List.nodup_append] at nodup
  obtain ⟨-, later, apart⟩ := nodup
  have early : TickPart.arcContest ∉ before := fun mem => apart _ mem _ List.mem_cons_self rfl
  refine ⟨before.foldl (takeTickPart c) s, sameContest_tickParts c early s, ?_⟩
  have rest := sameContest_tickParts c (List.nodup_cons.1 later).1 (arcTick c (before.foldl (takeTickPart c) s))
  have parts : (tickSchedule order).foldl (takeTickPart c) s =
      after.foldl (takeTickPart c) (arcTick c (before.foldl (takeTickPart c) s)) := by
    rw [split, List.foldl_append, List.foldl_cons, takeTickPart]
  rw [← parts] at rest
  exact rest

/-! ### The alarm (R100) -/

section
variable {threshold : Nat} {p : Peak} {a : Acu}

theorem alarmTick_leaves (threshold : Nat) (p : Peak) (a : Acu) : (a.alarmTick threshold p).contest = a.contest ∧
    (a.alarmTick threshold p).rivals = a.rivals ∧ (a.alarmTick threshold p).latch = a.latch := by
  unfold Acu.alarmTick
  split_ifs <;> exact ⟨rfl, rfl, rfl⟩

theorem contest_alarmTick : (a.alarmTick threshold p).contest = a.contest := (alarmTick_leaves threshold p a).1

theorem alarmTick_of_calm (calm : ¬ threshold < p.score) : a.alarmTick threshold p = { a with alarmRun := 0, runPeak := none } :=
  if_neg calm

theorem alarmTick_of_first (loud : threshold < p.score) (first : a.alarmRun = 0) :
    a.alarmTick threshold p = { a with alarmRun := 1, runPeak := some p } := by
  rw [Acu.alarmTick, if_pos loud, first]
  rfl

theorem alarmTick_of_next (loud : threshold < p.score) (next : 1 ≤ a.alarmRun) :
    (a.alarmTick threshold p).alarmRun = min 3 (a.alarmRun + 1) ∧
      ∀ q, a.runPeak = some q → (a.alarmTick threshold p).runPeak = some (if q.score < p.score then p else q) := by
  rw [Acu.alarmTick, if_pos loud, if_neg (by omega)]
  refine ⟨rfl, fun q peak => ?_⟩
  simp only [peak]
  split_ifs <;> rfl

theorem alarmRun_le : (a.alarmTick threshold p).alarmRun ≤ 3 := by
  unfold Acu.alarmTick
  by_cases loud : threshold < p.score
  · rw [if_pos loud]
    exact Nat.min_le_left 3 (a.alarmRun + 1)
  · rw [if_neg loud]
    exact Nat.zero_le 3

theorem alarmStands_iff : a.alarmStands = true ↔ 3 ≤ a.alarmRun := by rw [Acu.alarmStands, decide_eq_true_eq]

end

/-! ### Each contest record -/

/-- A contest has been opened in a round with a peak, or the latch has been set for want of a string. -/
def ContestOpened (c : Settings) (s t : State) (round : Nat) (p : Peak) : Prop :=
  (∀ i, chooseString p.shares s.arcCandidate = some i → t.acu.latch = s.acu.latch ∧ t.boxTrip = s.boxTrip
    ∧ t.abu = (if s.abu.silent then s.abu else
        s.abu.offerSingle c s.timeUs .arcClaim [byteOf round, 1, byteOf (p.score / 256), byteOf p.score, byteOf (i.val + 1)])
    ∧ ∃ best, t.acu.contest = .contest round p i (s.nowMs + ms c.contestWindow) best ∧ (best = none ↔ s.acu.rivals = [])
      ∧ ∀ b, best = some b → (∃ r ∈ s.acu.rivals, r.station = b.station ∧ r.score = b.score) ∧
          ∀ r ∈ s.acu.rivals, r.score < b.score ∨ (r.score = b.score ∧ b.station ≤ r.station)) ∧
  (chooseString p.shares s.arcCandidate = none →
    t.acu.contest = .idle ∧ t.acu.latch = true ∧ (s.acu.latch = false → t.boxTrip = true) ∧ t.abu = s.abu)

theorem contestOpened_openContest {c : Settings} {s : State} {a : Acu} {round : Nat} {p : Peak} (settings : s.settings = some c)
    (latch : a.latch = s.acu.latch) (rivals : a.rivals = s.acu.rivals) :
    ContestOpened c s (openContest c round p (s.withAcu a)) round p := by
  refine ⟨fun i chosen => ?_, fun none' => ?_⟩
  · obtain ⟨acu, abu, boxTrip⟩ := openContest_of_choice (s := s.withAcu a) (round := round) settings chosen
    have strongest := isBestRival_strongestRival a.rivals
    refine ⟨by rw [acu]; exact latch, boxTrip, abu, strongestRival a.rivals, by rw [acu]; rfl, ?_, fun b best => ?_⟩
    · rw [← rivals]
      refine ⟨fun none' => ?_, fun empty => by rw [empty]; rfl⟩
      rw [none'] at strongest
      exact strongest
    · rw [best] at strongest
      rw [← rivals]
      exact strongest
  · obtain ⟨acu, boxTrip, abu⟩ := openContest_of_no_choice (c := c) (s := s.withAcu a) (round := round) none'
    refine ⟨by rw [acu], by rw [acu], fun clear => boxTrip (latch.trans clear), abu⟩

section
variable {c : Settings} {s : State}

/-- The alarm after the tick, with which the unit acts on its contest record. -/
def State.alarmed (c : Settings) (s : State) : Acu := s.acu.alarmTick c.arcThreshold s.sfe.peak

theorem arcTick_of_idle_calm (idle : s.acu.contest = .idle) (calm : (s.alarmed c).alarmRun < 3) :
    arcTick c s = s.withAcu (s.alarmed c) := by
  have quiet : ¬ (s.acu.alarmTick c.arcThreshold s.sfe.peak).alarmStands = true := fun h =>
    absurd (alarmStands_iff.1 h) (Nat.not_le.2 calm)
  simp only [arcTick, contest_alarmTick, idle]
  rw [if_neg quiet]
  rfl

theorem arcTick_of_idle_alarm {p : Peak} (idle : s.acu.contest = .idle) (alarm : 3 ≤ (s.alarmed c).alarmRun)
    (peak : (s.alarmed c).runPeak = some p) : arcTick c s = openContest c 1 p (s.withAcu (s.alarmed c)) := by
  have stands : (s.acu.alarmTick c.arcThreshold s.sfe.peak).alarmStands = true := alarmStands_iff.2 alarm
  have peak : (s.acu.alarmTick c.arcThreshold s.sfe.peak).runPeak = some p := peak
  simp only [arcTick, contest_alarmTick, idle, stands, peak, if_true]
  rfl

theorem arcTick_of_contest {n : Nat} {own : Peak} {chosen : StringIdx} {windowEnd : Ms} {best : Option BestRival}
    (contest : s.acu.contest = .contest n own chosen windowEnd best) :
    arcTick c s = s.withAcu { s.alarmed c with
      contest := .contest n (raisePeak own chosen s).1 (raisePeak own chosen s).2 windowEnd best } := by
  simp only [arcTick, contest_alarmTick, contest]
  rfl

theorem arcTick_of_yielded_calm {n : Nat} {resolution quiet : Option Ms} (yielded : s.acu.contest = .yielded n resolution quiet)
    (calm : resolution ≠ none ∨ (s.alarmed c).alarmRun < 3) :
    arcTick c s = s.withAcu { s.alarmed c with
      contest := .yielded n resolution (quietAfter (decide (c.arcThreshold < s.sfe.score)) s.nowMs quiet) } := by
  simp only [arcTick, contest_alarmTick, yielded]
  rw [if_neg]
  · rfl
  · rintro ⟨waits, stands⟩
    rcases calm with resolving | low
    · exact resolving waits
    · exact absurd (alarmStands_iff.1 stands) (Nat.not_le.2 low)

theorem arcTick_of_yielded_alarm {n : Nat} {quiet : Option Ms} (yielded : s.acu.contest = .yielded n none quiet)
    (alarm : 3 ≤ (s.alarmed c).alarmRun) :
    arcTick c s = openContest c 2 s.sfe.peak (s.withAcu { s.alarmed c with
      contest := .yielded n none (quietAfter (decide (c.arcThreshold < s.sfe.score)) s.nowMs quiet) }) := by
  have stands : (s.acu.alarmTick c.arcThreshold s.sfe.peak).alarmStands = true := alarmStands_iff.2 alarm
  simp only [arcTick, contest_alarmTick, yielded]
  rw [if_pos ⟨trivial, stands⟩]
  rfl

theorem arcTick_of_settle {d : Ms} (settle : s.acu.contest = .settle d) : arcTick c s = s.withAcu (s.alarmed c) := by
  simp only [arcTick, contest_alarmTick, settle]
  rfl

end

theorem quietAfter_eq (loud : Prop) [Decidable loud] (now : Ms) (quiet : Option Ms) :
    quietAfter (decide loud) now quiet = if loud then none else some (quiet.getD now) := by
  unfold quietAfter
  by_cases h : loud
  · simp [h]
  · cases quiet <;> simp [h]

theorem rivals_arcTick (c : Settings) (s : State) : (arcTick c s).acu.rivals = s.acu.rivals := by
  have kept : (s.alarmed c).rivals = s.acu.rivals := (alarmTick_leaves _ _ _).2.1
  unfold arcTick
  dsimp only
  split
  case h_1 =>
    split
    · split
      · exact kept
      · exact (openContest_alarm c 1 _ _).2.2.trans kept
    · exact kept
  case h_2 => exact kept
  case h_3 =>
    split
    · exact (openContest_alarm c 2 _ _).2.2.trans kept
    · exact kept
  case h_4 => exact kept

/-- What a tick leaves of the unit's other outputs where it opens nothing. -/
theorem unchanged_withAcu {s : State} {a : Acu} (latch : a.latch = s.acu.latch) :
    (s.withAcu a).abu = s.abu ∧ (s.withAcu a).acu.latch = s.acu.latch ∧ (s.withAcu a).boxTrip = s.boxTrip := ⟨rfl, latch, rfl⟩

section
variable {c : Settings} {s : State} (settings : s.settings = some c)
include settings

/-- The alarm that begins to stand in IDLE opens round 1 with the run's peak (R105). -/
theorem contestOpened_of_idle {p : Peak} (idle : s.acu.contest = .idle) (alarm : (arcTick c s).acu.alarmRun = 3)
    (worst : (arcTick c s).acu.runPeak = some p) : ContestOpened c s (arcTick c s) 1 p := by
  obtain ⟨run, peak⟩ := arcTick_alarm c s
  obtain ⟨-, rivals, latch⟩ := alarmTick_leaves c.arcThreshold s.sfe.peak s.acu
  rw [arcTick_of_idle_alarm idle (run.symm.trans alarm).ge (peak.symm.trans worst)]
  exact contestOpened_openContest settings latch rivals

/-- The alarm that stands once the resolution is past opens round 2 with the tick's own peak (R109, R111). -/
theorem contestOpened_of_yielded {n : Nat} {quiet : Option Ms} (yielded : s.acu.contest = .yielded n none quiet)
    (alarm : (arcTick c s).acu.alarmRun = 3) : ContestOpened c s (arcTick c s) 2 s.sfe.peak := by
  obtain ⟨run, -⟩ := arcTick_alarm c s
  obtain ⟨-, rivals, latch⟩ := alarmTick_leaves c.arcThreshold s.sfe.peak s.acu
  rw [arcTick_of_yielded_alarm yielded (run.symm.trans alarm).ge]
  exact contestOpened_openContest settings latch rivals

end

end Sys2Proof.Machine

namespace Sys2Proof.Proofs

open Sys2Proof Sys2Proof.Machine

/-- Settles O15: a late set has changed nothing, and one on time is taken once, by the record's own row. -/
theorem arcContestFollowsTheTick : Obligations.ArcContestFollowsTheTick := by
  intro dt raw order start c
  dsimp only
  generalize taken : takeArrivals (start.arrive dt) = s
  intro settings due bounded
  refine ⟨_, exec_protectionTick_of_due taken settings due, ?_⟩
  simp only [endStep_frame]
  refine ⟨fun late => ?_, fun onTime => ?_⟩
  · obtain ⟨-, -, -, acu, abu, boxTrip, -⟩ := sameContest_consumeTick_of_late (c := c) late (readInputs raw s)
    simp only [readInputs_leaves] at acu abu boxTrip
    exact ⟨acu, abu, boxTrip, mem_arrivals_of_late _ late⟩
  obtain ⟨u, ⟨settings', time, -, acu, abu, boxTrip, candidate⟩, -, -, sfe', acu', abu', boxTrip', -⟩ :=
    sameContest_consumeTick (c := c) onTime (readInputs raw s)
  have candidate : u.arcCandidate = s.arcCandidate := candidate.trans (funext fun i => by simp [State.arcCandidate])
  have now : u.nowMs = s.nowMs := by simp only [State.nowMs, time, readInputs_leaves]
  have settings : u.settings = some c := settings'.trans (by simpa using settings)
  simp only [readInputs_leaves] at time acu abu boxTrip
  have sfe' : (consumeTick c order (readInputs raw s)).sfe = u.sfe := sfe'.trans (by simp)
  simp only [sfe', acu', abu', boxTrip', ← candidate, ← now, ← time, ← acu, ← abu, ← boxTrip] at bounded ⊢
  obtain ⟨run, peak⟩ := arcTick_alarm c u
  obtain ⟨-, rivals, latch⟩ := alarmTick_leaves c.arcThreshold u.sfe.peak u.acu
  refine ⟨rivals_arcTick c u, fun calm => ?_, fun loud => ⟨fun first => ?_, fun next => ?_⟩, fun idle low => ?_,
    fun idle alarm p worst => ?_, fun n own chosen windowEnd best contest => ?_, fun n resolution quiet yielded => ⟨?_, ?_⟩,
    fun d settle => ?_⟩
  · rw [run, peak, alarmTick_of_calm calm]
    exact ⟨rfl, rfl⟩
  · rw [run, peak, alarmTick_of_first loud first]
    exact ⟨rfl, rfl⟩
  · rw [run, peak]
    exact alarmTick_of_next loud next
  · rw [run] at low
    rw [arcTick_of_idle_calm idle low]
    exact ⟨contest_alarmTick.trans idle, unchanged_withAcu latch⟩
  · exact contestOpened_of_idle settings idle alarm worst
  · rw [arcTick_of_contest contest]
    refine ⟨unchanged_withAcu latch, fun louder => ?_, fun quieter => ?_⟩
    · simp only [raisePeak, if_pos louder]
      rfl
    · simp only [raisePeak, if_neg (Nat.not_lt.2 quieter)]
      exact contest.symm
  · intro calm
    rw [run] at calm
    rw [arcTick_of_yielded_calm yielded calm, quietAfter_eq]
    exact ⟨unchanged_withAcu latch, rfl⟩
  · intro waits alarm
    subst waits
    exact contestOpened_of_yielded settings yielded alarm
  · rw [arcTick_of_settle settle]
    exact ⟨contest_alarmTick.trans settle, unchanged_withAcu latch⟩

end Sys2Proof.Proofs
end

section
/-! Proofs: the record of a declaration stays in the log for the rest of its step; the third fast sample (R89, R91, R92, R156). -/

namespace Sys2Proof.Machine

/-! ### A record made in the step stays in the log (R156) -/

/-- An unacknowledged record with at most `k` newer ones. -/
def RecentRecord (r : FaultRecord) (k : Nat) (l : List FaultRecord) : Prop :=
  r.ackBy = none ∧ ∃ before after, l = before ++ r :: after ∧ after.length ≤ k

section
variable {r : FaultRecord} {k : Nat}

theorem RecentRecord.mem {l : List FaultRecord} (recent : RecentRecord r k l) : r ∈ l := by
  obtain ⟨-, before, after, rfl, -⟩ := recent
  simp

theorem recentRecord_append_self (l : List FaultRecord) (fresh : r.ackBy = none) : RecentRecord r 0 (l ++ [r]) :=
  ⟨fresh, l, [], rfl, le_rfl⟩

theorem RecentRecord.append {l : List FaultRecord} (recent : RecentRecord r k l) (q : FaultRecord) : RecentRecord r (k + 1) (l ++ [q]) := by
  obtain ⟨fresh, before, after, rfl, newer⟩ := recent
  exact ⟨fresh, before, after ++ [q], by simp, by simpa using newer⟩

/-- What a full log loses is an acknowledged record or the oldest, and a record with fewer than 31 newer ones is neither. -/
theorem RecentRecord.removeOldest {l : List FaultRecord} (recent : RecentRecord r k l) (full : 32 ≤ l.length) (few : k < 31) :
    RecentRecord r k (removeOldest l) := by
  obtain ⟨fresh, before, after, rfl, newer⟩ := recent
  refine ⟨fresh, ?_⟩
  have kept : ¬ r.ackBy.isSome = true := by simp [fresh]
  unfold Machine.removeOldest
  split
  case isTrue =>
    by_cases early : before.any (fun q => q.ackBy.isSome) = true
    · obtain ⟨q, mem, acknowledged⟩ := List.any_eq_true.1 early
      exact ⟨_, after, List.eraseP_append_left (p := fun q : FaultRecord => q.ackBy.isSome) acknowledged _ mem, newer⟩
    · have skipped : ∀ q ∈ before, ¬ q.ackBy.isSome = true := fun q mem acknowledged =>
        early (List.any_eq_true.2 ⟨q, mem, acknowledged⟩)
      refine ⟨before, after.eraseP fun q => q.ackBy.isSome, ?_, le_trans List.length_eraseP_le newer⟩
      rw [List.eraseP_append_right _ skipped, List.eraseP_cons_of_neg (by exact kept)]
  case isFalse =>
    cases before with
    | nil =>
      simp only [List.nil_append, List.length_cons] at full
      omega
    | cons b before => exact ⟨before, after, rfl, newer⟩

theorem recentRecord_append {d : Declaration} {seconds : Nat} {now : Ms} {f : Flg} (recent : RecentRecord r k f.records)
    (few : k < 31) : RecentRecord r (k + 1) (f.append d seconds now).records := by
  have room : RecentRecord r k f.makeRoom.records := by
    unfold Flg.makeRoom
    split
    case isTrue full => exact recent.removeOldest full few
    case isFalse => exact recent
  exact room.append _

end

/-- A block's act on the log: none, or one record more. -/
def LogGrows (f g : Flg) : Prop := g = f ∨ ∃ d seconds now, g = f.append d seconds now

theorem RecentRecord.grow {r : FaultRecord} {k : Nat} {f g : Flg} (recent : RecentRecord r k f.records) (few : k < 31)
    (grows : LogGrows f g) : RecentRecord r (k + 1) g.records := by
  rcases grows with rfl | ⟨d, seconds, now, rfl⟩
  · obtain ⟨fresh, before, after, records, newer⟩ := recent
    exact ⟨fresh, before, after, records, by omega⟩
  · exact recentRecord_append recent few

/-- Of fewer than 31 acts none takes a record made before them. -/
theorem RecentRecord.foldl {α : Type} {act : State → α → State} (each : ∀ s a, LogGrows s.flg (act s a).flg) {r : FaultRecord}
    {k : Nat} (l : List α) (few : k + l.length ≤ 31) {s : State} (recent : RecentRecord r k s.flg.records) :
    RecentRecord r (k + l.length) (l.foldl act s).flg.records := by
  induction l generalizing s k with
  | nil => exact recent
  | cons a l ih =>
    rw [List.length_cons] at few ⊢
    rw [List.foldl_cons, show k + (l.length + 1) = k + 1 + l.length by omega]
    exact ih (by omega) (recent.grow (by omega) (each s a))

theorem logGrows_declareFault {c : Settings} {d : Declaration} (s : State) (start : d.isolationStart = none) :
    LogGrows s.flg (declareFault c d s).flg := by
  rw [flg_declareFault, flg_recordFault_none start]
  exact .inr ⟨_, _, _, rfl⟩

/-! ### The fast check that declares (R89) -/

/-- The third sample in a row beyond a limit, its cause and the run's worst current. -/
def FastDue (c : Settings) (a : AdjRecord) (current : Int) (cause : Cause) (peak : Int) : Prop :=
  (cause = .reverseCurrent ∧ current ≤ -(c.reverseLimit : Int) ∧ a.reverseRun = 2 ∧ peak = min (a.reversePeak.getD current) current) ∨
  (cause = .overcurrent ∧ ¬ current ≤ -(c.reverseLimit : Int) ∧ (c.overcurrentLimit : Int) ≤ current ∧ a.overRun = 2
    ∧ peak = max (a.overPeak.getD current) current)

section
variable {c : Settings} {i : StringIdx} {s : State} {cause : Cause} {peak : Int}

theorem fastDeclaration_of_due {a : AdjRecord} {current : Int} (due : FastDue c a current cause peak) :
    (a.sampled c current).fastDeclaration c i = some (fastFault c i cause peak) := by
  rcases due with ⟨rfl, reverse, run, rfl⟩ | ⟨rfl, forward, beyond, run, rfl⟩
  · rw [sampled_of_reverse reverse, AdjRecord.fastDeclaration, if_pos (by dsimp only; omega)]
    rfl
  · rw [sampled_of_over forward beyond, AdjRecord.fastDeclaration, if_neg (by dsimp only; omega), if_pos (by dsimp only; omega)]
    rfl

theorem fastCheck_of_due (tested : (s.path i).connected = true) (due : FastDue c (s.adjOf i) s.sfe.currents[i] cause peak) :
    fastCheck c i s = declareFault c (fastFault c i cause peak)
      (s.setAdj i ((s.adjOf i).sampled c s.sfe.currents[i]).untested) := by
  rw [fastCheck, if_pos tested]
  simp only [fastDeclaration_of_due due]

/-- The declaration of a fast check: its record, its demand, its hold, and nothing of another string. -/
theorem fastCheck_declares (settings : s.settings = some c) (tested : (s.path i).connected = true)
    (due : FastDue c (s.adjOf i) s.sfe.currents[i] cause peak) :
    (fastCheck c i s).flg.records.getLast? = some (recordOf (fastFault c i cause peak) s.flg.nextSeq s.seconds s.nowMs) ∧
    RecentRecord (recordOf (fastFault c i cause peak) s.flg.nextSeq s.seconds s.nowMs) 0 (fastCheck c i s).flg.records ∧
    (fastCheck c i s).demands = s.demands ++ [⟨i, .fault cause, c.rampSteps⟩] ∧
    (c.strings[i].present = true → ((fastCheck c i s).hold i).lockout = true) := by
  have flg : (fastCheck c i s).flg = s.flg.append (fastFault c i cause peak) s.seconds s.nowMs := by
    rw [fastCheck_of_due tested due, flg_declareFault, flg_recordFault_none rfl]
    rfl
  refine ⟨?_, ?_, ?_, fun present => ?_⟩
  · rw [flg, append_getLast]
  · rw [flg, Flg.append, makeRoom_nextSeq]
    exact recentRecord_append_self _ rfl
  · rw [fastCheck_of_due tested due, demands_declareFault]
    rfl
  · have here : (s.setAdj i ((s.adjOf i).sampled c s.sfe.currents[i]).untested).present i = true :=
      present_iff.2 ⟨c, settings, present⟩
    rw [fastCheck_of_due tested due, hold_declareFault, if_pos (show i = (fastFault c i cause peak).string from rfl), if_pos here]
    exact consequence_lockout _ _ _

end

/-! ### The check among the other parts of its tick -/

/-- Two states agree in all that a string's fast check reads and writes but the log. -/
def SameString (i : StringIdx) (s t : State) : Prop :=
  t.settings = s.settings ∧ t.timeUs = s.timeUs ∧ t.sfe = s.sfe ∧ (t.path i).connected = (s.path i).connected ∧
    t.adjOf i = s.adjOf i ∧ t.hold i = s.hold i ∧
    t.demands.filter (fun d => decide (d.string = i)) = s.demands.filter (fun d => decide (d.string = i))

theorem SameString.refl (i : StringIdx) (s : State) : SameString i s s := ⟨rfl, rfl, rfl, rfl, rfl, rfl, rfl⟩

theorem SameString.trans {i : StringIdx} {s t u : State} (first : SameString i s t) (second : SameString i t u) : SameString i s u := by
  obtain ⟨settings, time, sfe, path, adj, hold, demands⟩ := first
  obtain ⟨settings', time', sfe', path', adj', hold', demands'⟩ := second
  exact ⟨settings'.trans settings, time'.trans time, sfe'.trans sfe, path'.trans path, adj'.trans adj, hold'.trans hold,
    demands'.trans demands⟩

/-- A demand for another string. -/
theorem filter_demands_declareFault_ne {c : Settings} {d : Declaration} {i : StringIdx} (other : d.string ≠ i) (s : State) :
    (declareFault c d s).demands.filter (fun d => decide (d.string = i)) = s.demands.filter fun d => decide (d.string = i) := by
  rw [demands_declareFault]
  cases d.demand <;> simp [other]

theorem string_of_fastDeclaration {c : Settings} {i : StringIdx} {a : AdjRecord} {d : Declaration}
    (declared : a.fastDeclaration c i = some d) : d.string = i ∧ d.isolationStart = none := by
  revert declared
  unfold AdjRecord.fastDeclaration
  split_ifs
  · rintro ⟨⟩
    exact ⟨rfl, rfl⟩
  · rintro ⟨⟩
    exact ⟨rfl, rfl⟩
  · rintro ⟨⟩

theorem filter_demands_fastCheck_ne {c : Settings} {i k : StringIdx} (other : k ≠ i) (s : State) :
    (fastCheck c k s).demands.filter (fun d => decide (d.string = i)) = s.demands.filter fun d => decide (d.string = i) := by
  unfold fastCheck
  dsimp only
  split
  · split
    · rfl
    · next d declared =>
      have other : d.string ≠ i := (string_of_fastDeclaration declared).1 ▸ other
      rw [filter_demands_declareFault_ne other]
      rfl
  · rfl

theorem hold_zeroBandSample (i k : StringIdx) (s : State) : (zeroBandSample k s).hold i = s.hold i := by
  rw [zeroBandSample]
  split
  case isTrue waits =>
    have open' : (s.path k).state ≠ .closed := by rcases waits.1 with at' | at' <;> simp [at']
    rw [hold_changePath]
    by_cases own : i = k
    · subst own
      simp [open']
    · simp [own]
  case isFalse => rfl

theorem sameString_takeTickPart (c : Settings) (s : State) {i : StringIdx} {part : TickPart} (other : part ≠ .fastCheck i) :
    SameString i s (takeTickPart c s part) := by
  cases part with
  | arcContest => exact ⟨by simp, by simp, by simp, by simp [takeTickPart], by simp [takeTickPart], by simp [takeTickPart],
      by simp [takeTickPart]⟩
  | zeroBand k => exact ⟨by simp, by simp, by simp, connected_zeroBandSample i k s, by simp [takeTickPart], hold_zeroBandSample i k s,
      by simp [takeTickPart]⟩
  | fastCheck k =>
    have apart : i ≠ k := fun same => other (by rw [same])
    exact ⟨by simp, by simp, by simp, by simp [takeTickPart], adjOf_fastCheck_ne apart s, hold_fastCheck_ne apart s,
      filter_demands_fastCheck_ne apart.symm s⟩

theorem sameString_tickParts (c : Settings) {i : StringIdx} {l : List TickPart} (others : .fastCheck i ∉ l) (s : State) :
    SameString i s (l.foldl (takeTickPart c) s) := by
  induction l generalizing s with
  | nil => exact .refl i s
  | cons part l ih =>
    rw [List.mem_cons, not_or] at others
    exact (sameString_takeTickPart c s (Ne.symm others.1)).trans (ih others.2 _)

theorem path_zeroBandSample_of_connected {i : StringIdx} {s : State} (connected : (s.path i).connected = true) :
    (zeroBandSample i s).path i = s.path i := by
  rw [zeroBandSample, if_neg]
  rintro ⟨at', -⟩
  rcases connected_iff.1 connected with here | here <;> simp [here] at at'

/-- A part of a tick makes one record at most. -/
theorem logGrows_takeTickPart (c : Settings) (s : State) (part : TickPart) : LogGrows s.flg (takeTickPart c s part).flg := by
  cases part with
  | arcContest => exact .inl (by simp [takeTickPart])
  | zeroBand k => exact .inl (by simp [takeTickPart])
  | fastCheck k =>
    rw [takeTickPart, fastCheck]
    dsimp only
    split
    · split
      · exact .inl rfl
      · next d declared =>
        have grows := logGrows_declareFault (c := c) (d := d)
          (s.setAdj k ((s.adjOf k).sampled c s.sfe.currents[k]).untested) (string_of_fastDeclaration declared).2
        exact grows
    · exact .inl rfl

/-- A tick has 25 parts. -/
theorem length_tickSchedule_le (order : TickOrder) : (tickSchedule order).length ≤ 25 :=
  (List.subperm_of_subset (nodup_tickSchedule order) fun part _ => TickPart.mem_all part).length_le

/-- What is left at the end of a tick's parts of a fast check that declared. -/
theorem fastCheck_declares_in_tick {c : Settings} {order : TickOrder} {i : StringIdx} {s : State} {cause : Cause} {peak : Int}
    (settings : s.settings = some c) (tested : (s.path i).connected = true) (onTime : .fastCheck i ∉ order.late)
    (due : FastDue c (s.adjOf i) s.sfe.currents[i] cause peak) :
    let u := consumeTick c order s
    (∃ seq, recordOf (fastFault c i cause peak) seq s.seconds s.nowMs ∈ u.flg.records) ∧
    (c.strings[i].present = true → (u.hold i).lockout = true) ∧
    u.demands.filter (fun d => decide (d.string = i)) =
      s.demands.filter (fun d => decide (d.string = i)) ++ [⟨i, .fault cause, c.rampSteps⟩] := by
  obtain ⟨before, after, split⟩ := List.append_of_mem ((mem_tickSchedule order (.fastCheck i)).2 onTime)
  have short := length_tickSchedule_le order
  have nodup := nodup_tickSchedule order
  rw [split, List.nodup_append] at nodup
  obtain ⟨-, later, apart⟩ := nodup
  have early : TickPart.fastCheck i ∉ before := fun mem => apart _ mem _ List.mem_cons_self rfl
  obtain ⟨settings', time, sfe, path, adj, -, demands⟩ := sameString_tickParts c early s
  have parts : (tickSchedule order).foldl (takeTickPart c) s =
      after.foldl (takeTickPart c) (fastCheck c i (before.foldl (takeTickPart c) s)) := by
    rw [split, List.foldl_append, List.foldl_cons, takeTickPart]
  generalize before.foldl (takeTickPart c) s = t at settings' time sfe path adj demands parts
  rw [split, List.length_append, List.length_cons] at short
  obtain ⟨-, recent, sent, lockout⟩ := fastCheck_declares (settings'.trans settings) (path.trans tested)
    (by rw [adj, sfe]; exact due)
  obtain ⟨-, -, -, -, -, hold, demands'⟩ := sameString_tickParts c (List.nodup_cons.1 later).1 (fastCheck c i t)
  have kept := recent.foldl (logGrows_takeTickPart c) after (by omega)
  rw [← parts] at kept hold demands'
  have now : t.nowMs = s.nowMs := by rw [State.nowMs, State.nowMs, time]
  have seconds : t.seconds = s.seconds := by rw [State.seconds, State.seconds, time]
  rw [now, seconds] at kept
  rw [sent, List.filter_append, demands] at demands'
  refine ⟨⟨_, kept.mem⟩, fun present => ?_, demands'.trans (by simp)⟩
  exact (congrArg Hold.lockout hold).trans (lockout present)

end Sys2Proof.Machine

namespace Sys2Proof.Proofs

open Sys2Proof Sys2Proof.Machine

/-- Settles O13: the one check, and then the check among the parts of its tick, of which no two are of one string. -/
theorem thirdFastSampleDeclares : Obligations.ThirdFastSampleDeclares := by
  refine ⟨fun c i s cause peak settings at' due => ?_, fun dt raw order start c => ?_⟩
  · have tested := connected_iff.2 at'
    obtain ⟨record, -, demands, lockout⟩ := fastCheck_declares settings tested due
    exact ⟨⟨_, record, rfl, rfl, rfl, rfl, rfl, rfl, rfl, rfl, rfl⟩, demands, by simp, lockout,
      fun j other => ⟨hold_fastCheck_ne other s, adjOf_fastCheck_ne other s⟩⟩
  · dsimp only
    generalize taken : takeArrivals (start.arrive dt) = s
    intro settings due
    refine ⟨_, exec_protectionTick_of_due taken settings due, fun i cause peak at' onTime limit => ?_⟩
    have tested : ((readInputs raw s).path i).connected = true := by simpa using connected_iff.2 at'
    have settings' : (readInputs raw s).settings = some c := by simpa using settings
    have limit' : FastDue c ((readInputs raw s).adjOf i) (readInputs raw s).sfe.currents[i] cause peak := by
      unfold FastDue
      simpa only [consumeTick_frame, readInputs_leaves] using limit
    obtain ⟨⟨seq, record⟩, lockout, demands⟩ := fastCheck_declares_in_tick settings' tested onTime limit'
    have path : (consumeTick c order (readInputs raw s)).path i = s.path i := by
      rw [path_consumeTick, path_zeroBandSample_of_connected tested, ite_self]
      simp
    simp only [readInputs_leaves] at record demands
    refine ⟨⟨_, record, rfl, rfl, rfl, rfl, rfl, rfl, rfl, rfl, rfl⟩, lockout, path, demands, fun quiet => ?_⟩
    have none' : s.demands.filter (fun d => decide (d.string = i)) = [] :=
      List.filter_eq_nil_iff.2 fun d mem => by simpa using quiet d mem
    have now : (consumeTick c order (readInputs raw s)).nowMs = s.nowMs := by simp
    obtain ⟨level, opens⟩ := demanded_of_connected (now := s.nowMs) (reason := .fault cause) (n := c.rampSteps)
      (connected_iff.2 at')
    have opened : (endStep false (consumeTick c order (readInputs raw s))).path i =
        (s.path i).beginOpening s.nowMs (.fault cause) c.rampSteps level := by
      refine (path_takeDemands _ i).trans ?_
      rw [demands, none', path, now, ← opens]
      rfl
    rw [opened]
    exact ⟨rfl, rfl, rfl, rfl, rfl⟩

end Sys2Proof.Proofs
end

section
/-! Proofs: the group records, verdicts and deviations of a window close (R61 to R74, R77). -/

namespace Sys2Proof.Machine

/-! ### What the Reference unit takes at a close -/

/-- The part at a close once the accumulator has closed and the peer table has aged. -/
def agedAtClose (c : Settings) (s : State) : State := (s.withWac s.wac.closeWindow.openWindow).withPtb (s.ptb.age c s.nowMs)

/-- The Reference unit's input at a close. -/
def closeInput (c : Settings) (s : State) : WindowInput := windowInput c s.wac.closeWindow (agedAtClose c s)

theorem closeWindow_eq (c : Settings) (order : CloseOrder) (s : State) : closeWindow c order s =
    judgeWindow c order (closeInput c s) (evaluateWindow (closeInput c s) s.wac.closeWindow.windowNumber (agedAtClose c s)) := rfl

theorem closeWindow_fields (w : Wac) : w.closeWindow.endedClosed = w.endedClosed ∧ w.closeWindow.windowNumber = w.windowNumber + 1 := by
  unfold Wac.closeWindow
  dsimp only
  split <;> simp

/-- The input's fields, in the words of the state before the close. -/
theorem closeInput_fields (c : Settings) (s : State) : (closeInput c s).config = c ∧ (closeInput c s).means = s.wac.closeWindow.means ∧
    (closeInput c s).closedThroughout = s.wac.endedClosed ∧ (closeInput c s).boxValid = s.wac.closeWindow.boxValid ∧
    (∀ i, (closeInput c s).strikes i = (s.adjOf i).strikes) ∧
    ∀ g, (closeInput c s).peers g = (s.ptb.age c s.nowMs).medians c s.nowMs g :=
  ⟨rfl, rfl, (closeWindow_fields s.wac).1, rfl, fun _ => rfl, fun _ => rfl⟩

/-- What the close leaves to the accumulator, the peer table and the Reference unit at the end of its step. -/
theorem windowClose_leaves (c : Settings) (order : CloseOrder) (wait : Bool) (s : State) :
    (endStep wait (closeWindow c order s)).rfu = (closeInput c s).evaluate s.rfu ∧
    (endStep wait (closeWindow c order s)).ptb = s.ptb.age c s.nowMs ∧
    (endStep wait (closeWindow c order s)).wac.means = (closeInput c s).means ∧
    (endStep wait (closeWindow c order s)).wac.boxValid = (closeInput c s).boxValid := by
  have wac := besidesMarks_endStep wait (closeWindow c order s)
  rw [wac_closeWindow] at wac
  obtain ⟨-, -, -, -, -, -, means, runs⟩ := windowClose_fields wac
  refine ⟨?_, ?_, means, congrArg Prod.fst runs⟩
  · simp [closeWindow_eq, evaluateWindow, agedAtClose]
  · simp only [endStep_frame, ptb_closeWindow]

/-- The own contributors' values of a group (R63). -/
theorem ownValues_closeInput (c : Settings) (s : State) (g : Nat) : (closeInput c s).ownValues g =
    (StringIdx.all.filter fun i => c.strings[i].present && decide (c.strings[i].group = g) && s.wac.endedClosed[i]
        && decide ((s.adjOf i).strikes = 0) && (closeInput c s).boxValid).map
      fun i => roundDiv ((closeInput c s).means[i] * 1000) c.strings[i].weight := by
  obtain ⟨-, -, closed, -⟩ := closeInput_fields c s
  unfold WindowInput.ownValues WindowInput.contributes
  rw [closed]
  rfl

theorem hasGroup_closeInput_iff {c : Settings} {s : State} {g : Nat} :
    (closeInput c s).hasGroup g = true ↔ ∃ i : StringIdx, c.strings[i].present = true ∧ c.strings[i].group = g := by
  rw [WindowInput.hasGroup, any_strings]
  simp only [Bool.and_eq_true]
  exact exists_congr fun i => and_congr_right fun _ => decide_eq_true_iff

/-- The medians that the fresh peers supply (R52). -/
theorem medians_eq (c : Settings) (now : Ms) (g : Nat) (p : Ptb) : p.medians c now g = p.entries.filterMap fun e =>
    if e.lastDigest.any (fun m => decide (since now m ≤ 2 * (64 * c.sampleInterval))) then
      (e.groups.find? fun q => decide (q.group = g)).bind fun q => if q.valid = true ∧ 1 ≤ q.count then q.median else none
    else none := by
  rw [Ptb.medians]
  congr 1
  funext e
  have fresh : e.fresh c now = e.lastDigest.any fun m => decide (since now m ≤ 2 * (64 * c.sampleInterval)) := by
    unfold PeerEntry.fresh
    cases e.lastDigest <;> rfl
  rw [PeerEntry.supplies, fresh]
  cases e.groups.find? fun q => decide (q.group = g) <;> rfl

/-! ### The reference of a list (R66 to R68) -/

theorem median_of_odd {l sorted : List Int} (same : sorted.Perm l) (ascends : sorted.Pairwise (· ≤ ·)) (odd : l.length % 2 = 1) :
    median l = sorted.getD (l.length / 2) 0 := by
  rw [median, sortInts_eq same ascends]
  exact if_pos odd

theorem median_of_even {l sorted : List Int} (same : sorted.Perm l) (ascends : sorted.Pairwise (· ≤ ·)) (even : l.length % 2 = 0) :
    median l = (sorted.getD (l.length / 2 - 1) 0 + sorted.getD (l.length / 2) 0).tdiv 2 := by
  rw [median, sortInts_eq same ascends]
  exact if_neg (by omega)

theorem groupRecordOfList_of_few {least floor : Nat} {l : List Int} (few : l.length < least ∨ l.length = 0) :
    groupRecordOfList least floor l = ⟨l.length, none, false⟩ := by
  rw [groupRecordOfList, if_pos]
  rcases few with few | empty
  · exact .inr few
  · exact .inl (List.eq_nil_of_length_eq_zero empty)

theorem groupRecordOfList_of_enough {least floor : Nat} {l : List Int} (enough : least ≤ l.length) (some' : l.length ≠ 0) :
    groupRecordOfList least floor l = ⟨l.length, some (median l), decide (median l < floor)⟩ := by
  rw [groupRecordOfList, if_neg]
  rintro (empty | few)
  · exact some' (by rw [empty]; rfl)
  · omega

/-! ### The judgement of a string (R69) -/

section
variable {w : WindowInput} {i : StringIdx}

theorem judgement_of_invalid (invalid : w.boxValid = false) : w.judgement i = .held := by
  rw [WindowInput.judgement]
  exact if_pos invalid

theorem judgement_of_ungrouped (ungrouped : w.config.strings[i].group = 15) : w.judgement i = .held := by
  simp only [WindowInput.judgement, ungrouped]
  split_ifs <;> rfl

theorem judgement_of_opened (valid : w.boxValid = true) (opened : w.closedThroughout[i] = false)
    (grouped : w.config.strings[i].group ≠ 15) : w.judgement i = .partialWindow := by
  simp only [WindowInput.judgement, valid, opened, if_neg grouped]
  rfl

theorem judgement_of_closed (valid : w.boxValid = true) (closed : w.closedThroughout[i] = true)
    (grouped : w.config.strings[i].group ≠ 15) :
    w.judgement i = judge (w.normalized i) (w.groupRecord w.config.strings[i].group) := by
  simp only [WindowInput.judgement, valid, closed, if_neg grouped]
  rfl

end

/-! ### The Reference unit's fields after a close (R68, R77) -/

theorem groups_evaluate (w : WindowInput) (r : Rfu) (g : Fin 8) : (w.evaluate r).groups[g] = w.groupRecord g.val := by
  simp [WindowInput.evaluate]

theorem strings_evaluate_of_present {w : WindowInput} {i : StringIdx} (r : Rfu) (present : w.config.strings[i].present = true) :
    (w.evaluate r).strings[i] = ⟨w.normalized i, some (w.judgement i).verdict, (w.judgement i).deviation⟩ := by
  have here : (if w.config.strings[i].present = true
      then (⟨w.normalized i, some (w.judgement i).verdict, (w.judgement i).deviation⟩ : RfuString) else r.strings[i]) = _ := if_pos present
  simpa [WindowInput.evaluate] using here

theorem strings_evaluate_of_absent {w : WindowInput} {i : StringIdx} (r : Rfu) (absent : w.config.strings[i].present = false) :
    (w.evaluate r).strings[i] = r.strings[i] := by
  have here : (if w.config.strings[i].present = true
      then (⟨w.normalized i, some (w.judgement i).verdict, (w.judgement i).deviation⟩ : RfuString) else r.strings[i]) = _ :=
    if_neg (by rw [absent]; decide)
  simpa [WindowInput.evaluate] using here

end Sys2Proof.Machine

namespace Sys2Proof.Proofs

open Sys2Proof Sys2Proof.Machine

/-- Settles O19: the record of each group, what is asked of none, and the reference by the list's length. -/
theorem referenceIsTheMedianOfTheContributors : Obligations.ReferenceIsTheMedianOfTheContributors := by
  refine ⟨fun dt order start c => ?_, fun r g => ⟨fun none' => ?_, fun record some' => ?_⟩,
    fun least floor l sorted same ascends => ?_⟩
  · dsimp only
    generalize arrives : start.arrive dt = s
    intro settings full
    subst arrives
    refine ⟨_, exec_windowClose_of_full settings full, fun g => ?_⟩
    obtain ⟨rfu, ptb, means, valid⟩ := windowClose_leaves c order order.demandsWait (start.arrive dt)
    rw [rfu, ptb, means, valid, groups_evaluate, ← ownValues_closeInput, ← medians_eq, WindowInput.groupRecord]
    refine ⟨fun grouped => ?_, fun ungrouped => ?_⟩
    · rw [if_pos (hasGroup_closeInput_iff.2 grouped)]
      rfl
    · rw [if_neg]
      intro grouped
      obtain ⟨i, present, group⟩ := hasGroup_closeInput_iff.1 grouped
      exact ungrouped i present group
  · rw [Rfu.asked, recordOf_of_lt r g.isLt]
    simp only [Fin.getElem_fin] at none'
    rw [none']
    rfl
  · rw [Rfu.asked, recordOf_of_lt r g.isLt]
    simp only [Fin.getElem_fin] at some'
    rw [some']
    rfl
  · dsimp only
    refine ⟨?_, fun few => ?_, fun enough odd => ?_, fun enough some' even => ?_⟩
    · unfold groupRecordOfList
      split_ifs <;> rfl
    · rw [groupRecordOfList_of_few few]
      exact ⟨rfl, rfl⟩
    · rw [groupRecordOfList_of_enough enough (by omega), median_of_odd same ascends odd]
      exact ⟨rfl, rfl⟩
    · rw [groupRecordOfList_of_enough enough some', median_of_even same ascends even]
      exact ⟨rfl, rfl⟩

/-- Settles O20: the first condition of R69 that holds decides the judgement, of which the fields are written. -/
theorem closeWritesVerdictsAndDeviations : Obligations.CloseWritesVerdictsAndDeviations := by
  intro dt order start c
  dsimp only
  generalize arrives : start.arrive dt = s
  intro settings full
  subst arrives
  refine ⟨_, exec_windowClose_of_full settings full, fun i => ?_⟩
  obtain ⟨rfu, -, means, valid⟩ := windowClose_leaves c order order.demandsWait (start.arrive dt)
  obtain ⟨-, -, closed, -⟩ := closeInput_fields c (start.arrive dt)
  rw [rfu, means, valid, ← closed]
  have written (present : c.strings[i].present = true) :=
    strings_evaluate_of_present (w := closeInput c (start.arrive dt)) (start.arrive dt).rfu present
  refine ⟨fun absent => strings_evaluate_of_absent _ absent, fun present => ?_, fun present invalid => ?_, fun present ungrouped => ?_,
    fun present valid opened grouped => ?_, fun group record present valid closed recorded => ?_⟩
  · rw [written present]
    rfl
  · rw [written present, judgement_of_invalid invalid]
    exact ⟨rfl, rfl⟩
  · rw [written present, judgement_of_ungrouped ungrouped]
    exact ⟨rfl, rfl⟩
  · rw [written present, judgement_of_opened valid opened grouped]
    exact ⟨rfl, rfl⟩
  · have grouped : c.strings[i].group ≠ 15 := by omega
    have recorded : (closeInput c (start.arrive dt)).groupRecord c.strings[i].group = some record :=
      (groups_evaluate _ (start.arrive dt).rfu ⟨_, group⟩).symm.trans recorded
    have judged := (judgement_of_closed valid closed grouped).trans (congrArg (judge _) recorded)
    rw [written present, judged]
    refine ⟨fun unavailable => ?_, fun ref available dark => ?_, fun ref available bright => ?_⟩
    · simp only [judge, unavailable]
      exact ⟨rfl, rfl⟩
    · simp only [judge, available, dark]
      exact ⟨rfl, rfl⟩
    · simp only [judge, available, bright]
      exact ⟨rfl, rfl⟩

end Sys2Proof.Proofs
end

section
/-! Proofs: the verdict set at the Adjudicator, entry by entry and as a whole (R83, R84). -/

namespace Sys2Proof.Machine

/-! ### One entry -/

theorem isStrike_iff {c : Settings} {d : Int} : isStrike c d = true ↔ d < -(c.guardLow : Int) ∨ (c.guardHigh : Int) < d := by
  rw [isStrike, Bool.or_eq_true, decide_eq_true_eq, decide_eq_true_eq]

section
variable {c : Settings} {i : StringIdx} {s : State}

theorem takeVerdict_of_partialWindow : takeVerdict c ⟨i, .partialWindow⟩ s = s.setAdj i { s.adjOf i with strikes := 0 } := rfl

theorem takeVerdict_of_dark_or_held {j : Judgement} (idle : j = .dark ∨ j = .held) : takeVerdict c ⟨i, j⟩ s = s := by
  rcases idle with rfl | rfl <;> rfl

variable {d ref : Int} {n : Nat}

theorem takeVerdict_of_inside (inside : ¬ (d < -(c.guardLow : Int) ∨ (c.guardHigh : Int) < d)) :
    takeVerdict c ⟨i, .full d ref n⟩ s = s.setAdj i { s.adjOf i with strikes := 0 } :=
  if_neg (mt isStrike_iff.1 inside)

variable (strike : d < -(c.guardLow : Int) ∨ (c.guardHigh : Int) < d)
include strike

theorem takeVerdict_of_strike (more : (s.adjOf i).strikes + 1 < c.persistence) :
    takeVerdict c ⟨i, .full d ref n⟩ s = s.setAdj i { s.adjOf i with strikes := (s.adjOf i).strikes + 1 } :=
  (if_pos (isStrike_iff.2 strike)).trans (if_neg (Nat.not_le.2 more))

theorem takeVerdict_of_last_strike (reached : c.persistence ≤ (s.adjOf i).strikes + 1) :
    takeVerdict c ⟨i, .full d ref n⟩ s =
      declareFault c (performanceFault c i d ref n) (s.setAdj i { s.adjOf i with strikes := 0 }) :=
  (if_pos (isStrike_iff.2 strike)).trans (if_pos reached)

omit strike in
/-- With REPORT_ONLY a performance fault opens nothing and holds nothing. -/
theorem performanceFault_fields (c : Settings) (i : StringIdx) (d ref : Int) (n : Nat) :
    (performanceFault c i d ref n).demand = (if c.strings[i].action = .reportOnly then none else some c.rampSteps) ∧
    (performanceFault c i d ref n).outcome = (if c.strings[i].action = .reportOnly then .reported else .isolated) ∧
    (performanceFault c i d ref n).consequence = (if c.strings[i].action = .reportOnly then .nothing else .retryOrLockout) := by
  simp only [performanceFault, decide_eq_true_eq, and_self]

/-- The count that reaches P: it returns to 0, and the fault is declared with the entry's three values. -/
theorem takeVerdict_declares (reached : c.persistence ≤ (s.adjOf i).strikes + 1) :
    let t := takeVerdict c ⟨i, .full d ref n⟩ s
    t.adjOf i = { s.adjOf i with strikes := 0 } ∧
    t.flg.records.getLast? = some (recordOf (performanceFault c i d ref n) s.flg.nextSeq s.seconds s.nowMs) ∧
    RecentRecord (recordOf (performanceFault c i d ref n) s.flg.nextSeq s.seconds s.nowMs) 0 t.flg.records ∧
    t.demands = s.demands ++
      (if c.strings[i].action = .reportOnly then [] else [⟨i, .fault (if d < 0 then .lowOutput else .highOutput), c.rampSteps⟩]) ∧
    (c.strings[i].action = .reportOnly → t.hold i = s.hold i) := by
  dsimp only
  rw [takeVerdict_of_last_strike strike reached]
  have flg : (declareFault c (performanceFault c i d ref n) (s.setAdj i { s.adjOf i with strikes := 0 })).flg =
      s.flg.append (performanceFault c i d ref n) s.seconds s.nowMs := by
    rw [flg_declareFault, flg_recordFault_none rfl]
    rfl
  refine ⟨by simp, ?_, ?_, ?_, fun report => ?_⟩
  · rw [flg, append_getLast]
  · rw [flg, Flg.append, makeRoom_nextSeq]
    exact recentRecord_append_self _ rfl
  · rw [demands_declareFault]
    rw [(performanceFault_fields c i d ref n).1]
    by_cases report : c.strings[i].action = .reportOnly
    · rw [if_pos report, if_pos report]
      rfl
    · rw [if_neg report, if_neg report]
      rfl
  · have calm : (performanceFault c i d ref n).consequence = .nothing :=
      (performanceFault_fields c i d ref n).2.2.trans (if_pos report)
    rw [hold_declareFault, calm]
    split_ifs <;> rfl

end

theorem logGrows_takeVerdict (c : Settings) (s : State) (e : VerdictEntry) : LogGrows s.flg (takeVerdict c e s).flg := by
  unfold takeVerdict
  dsimp only
  split
  case h_1 d ref n _ =>
    split_ifs
    · have grows := logGrows_declareFault (c := c) (d := performanceFault c e.string d ref n)
        (s.setAdj e.string { s.adjOf e.string with strikes := 0 }) rfl
      exact grows
    · exact .inl rfl
    · exact .inl rfl
  case h_2 => exact .inl rfl
  case h_3 => exact .inl rfl
  case h_4 => exact .inl rfl

/-! ### The entry among the others of its set -/

theorem sameString_setAdj {i k : StringIdx} (other : k ≠ i) (a : AdjRecord) (s : State) : SameString i s (s.setAdj k a) :=
  ⟨rfl, rfl, rfl, rfl, State.adjOf_setAdj_ne _ _ other.symm, rfl, rfl⟩

theorem sameString_declareFault {c : Settings} {d : Declaration} {i : StringIdx} (other : d.string ≠ i) (s : State) :
    SameString i s (declareFault c d s) :=
  ⟨by simp, by simp, by simp, by simp, by simp, (declareFault_other other.symm).2, filter_demands_declareFault_ne other s⟩

theorem sameString_takeVerdict {c : Settings} {i : StringIdx} {e : VerdictEntry} (other : e.string ≠ i) (s : State) :
    SameString i s (takeVerdict c e s) := by
  unfold takeVerdict
  dsimp only
  split
  case h_1 d ref n _ =>
    split_ifs
    · exact (sameString_setAdj other _ s).trans (sameString_declareFault (d := performanceFault c e.string d ref n) other _)
    · exact sameString_setAdj other _ s
    · exact sameString_setAdj other _ s
  case h_2 => exact sameString_setAdj other _ s
  case h_3 => exact .refl i s
  case h_4 => exact .refl i s

theorem sameString_takeVerdicts {c : Settings} {i : StringIdx} {set : List VerdictEntry} (others : ∀ e ∈ set, e.string ≠ i)
    (s : State) : SameString i s (takeVerdicts c set s) := by
  induction set generalizing s with
  | nil => exact .refl i s
  | cons e set ih =>
    rw [List.forall_mem_cons] at others
    exact (sameString_takeVerdict others.1 s).trans (ih others.2 _)

/-- The Adjudicator takes a set as if each entry came alone: before it and after it nothing of its string changes, and a record that it
makes stays. -/
theorem takeVerdicts_at {c : Settings} {set : List VerdictEntry} (apart : (set.map VerdictEntry.string).Nodup)
    (short : set.length ≤ 31) {e : VerdictEntry} (mem : e ∈ set) (s : State) :
    ∃ t, SameString e.string s t ∧ SameString e.string (takeVerdict c e t) (takeVerdicts c set s) ∧
      ∀ r, RecentRecord r 0 (takeVerdict c e t).flg.records → r ∈ (takeVerdicts c set s).flg.records := by
  obtain ⟨before, after, rfl⟩ := List.append_of_mem mem
  rw [List.map_append, List.map_cons, List.nodup_append] at apart
  obtain ⟨-, later, apart⟩ := apart
  have early : ∀ q ∈ before, q.string ≠ e.string := fun q mem =>
    apart _ (List.mem_map_of_mem mem) _ List.mem_cons_self
  have late : ∀ q ∈ after, q.string ≠ e.string := fun q mem same =>
    (List.nodup_cons.1 later).1 (same ▸ List.mem_map_of_mem mem)
  rw [List.length_append, List.length_cons] at short
  refine ⟨takeVerdicts c before s, sameString_takeVerdicts early s, ?_⟩
  have whole : takeVerdicts c (before ++ e :: after) s = takeVerdicts c after (takeVerdict c e (takeVerdicts c before s)) := by
    simp only [takeVerdicts, List.foldl_append, List.foldl_cons]
  rw [whole]
  exact ⟨sameString_takeVerdicts late _, fun r recent =>
    (recent.foldl (fun t q => logGrows_takeVerdict c t q) after (by omega)).mem⟩

/-! ### The set of a close -/

theorem map_string_verdicts (c : Settings) (s : State) :
    (closeInput c s).verdicts.map VerdictEntry.string = StringIdx.all.filter fun i => c.strings[i].present := by
  rw [WindowInput.verdicts, List.map_map]
  exact List.map_id _

theorem nodup_verdicts (c : Settings) (s : State) : ((closeInput c s).verdicts.map VerdictEntry.string).Nodup := by
  rw [map_string_verdicts]
  exact StringIdx.nodup_all.filter _

theorem length_verdicts_le (c : Settings) (s : State) : (closeInput c s).verdicts.length ≤ 31 := by
  have twelve : StringIdx.all.length = 12 := rfl
  have filtered := List.length_filter_le (fun i : StringIdx => c.strings[i].present) StringIdx.all
  rw [← map_string_verdicts c s, List.length_map] at filtered
  omega

theorem mem_verdicts_of_present {c : Settings} {i : StringIdx} (s : State) (present : c.strings[i].present = true) :
    ⟨i, (closeInput c s).judgement i⟩ ∈ (closeInput c s).verdicts :=
  List.mem_map_of_mem (f := fun i => (⟨i, (closeInput c s).judgement i⟩ : VerdictEntry))
    (List.mem_filter.2 ⟨StringIdx.mem_all i, present⟩)

theorem present_of_mem_verdicts {c : Settings} {s : State} {e : VerdictEntry} (mem : e ∈ (closeInput c s).verdicts) :
    c.strings[e.string].present = true ∧ e.judgement = (closeInput c s).judgement e.string := by
  obtain ⟨i, listed, rfl⟩ := List.mem_map.1 mem
  exact ⟨(List.mem_filter.1 listed).2, rfl⟩

/-! ### The judges of a close -/

/-- The part at a close before the Hold manager and the Adjudicator take it. -/
def evaluatedAtClose (c : Settings) (s : State) : State :=
  evaluateWindow (closeInput c s) s.wac.closeWindow.windowNumber (agedAtClose c s)

theorem closeWindow_of_waiting {c : Settings} {order : CloseOrder} {s : State} (wait : order.verdictsWait = true) :
    closeWindow c order s = (evaluatedAtClose c s).withArrivals (s.arrivals ++
      if order.holdsFirst then [.goodRun, .verdicts (closeInput c s).verdicts] else [.verdicts (closeInput c s).verdicts, .goodRun]) := by
  have waiting : (evaluatedAtClose c s).arrivals = s.arrivals := by simp [evaluatedAtClose, agedAtClose]
  rw [closeWindow_eq, judgeWindow, if_pos wait, ← waiting]
  rfl

theorem closeWindow_of_holds_first {c : Settings} {order : CloseOrder} {s : State} (judged : order.verdictsWait = false)
    (first : order.holdsFirst = true) :
    closeWindow c order s = takeVerdicts c (closeInput c s).verdicts (goodRun c (evaluatedAtClose c s)) := by
  rw [closeWindow_eq, judgeWindow, if_neg (by rw [judged]; decide), closeArrivals, if_pos first]
  rfl

theorem closeWindow_of_verdicts_first {c : Settings} {order : CloseOrder} {s : State} (judged : order.verdictsWait = false)
    (first : order.holdsFirst = false) :
    closeWindow c order s = goodRun c (takeVerdicts c (closeInput c s).verdicts (evaluatedAtClose c s)) := by
  rw [closeWindow_eq, judgeWindow, if_neg (by rw [judged]; decide), closeArrivals, if_neg (by rw [first]; decide)]
  rfl

/-- What the evaluation leaves. -/
theorem evaluatedAtClose_leaves (c : Settings) (s : State) :
    (evaluatedAtClose c s).settings = s.settings ∧ (evaluatedAtClose c s).timeUs = s.timeUs ∧ (evaluatedAtClose c s).adj = s.adj ∧
    (evaluatedAtClose c s).flg = s.flg ∧ (evaluatedAtClose c s).demands = s.demands ∧ (evaluatedAtClose c s).hld = s.hld ∧
    (evaluatedAtClose c s).arrivals = s.arrivals ∧ (evaluatedAtClose c s).paths = s.paths ∧
    (evaluatedAtClose c s).nowMs = s.nowMs := by
  simp [evaluatedAtClose, agedAtClose]

/-- The verdict set of a close is taken from a state with the strikes, the log and the demands of the state before the close. -/
theorem closeWindow_takes_verdicts {c : Settings} {order : CloseOrder} (s : State) (judged : order.verdictsWait = false) :
    ∃ x, x.timeUs = s.timeUs ∧ x.adj = s.adj ∧ x.demands = s.demands ∧
      (closeWindow c order s).adj = (takeVerdicts c (closeInput c s).verdicts x).adj ∧
      (closeWindow c order s).flg = (takeVerdicts c (closeInput c s).verdicts x).flg ∧
      (closeWindow c order s).demands = (takeVerdicts c (closeInput c s).verdicts x).demands := by
  obtain ⟨-, time, adj, -, demands, -⟩ := evaluatedAtClose_leaves c s
  cases first : order.holdsFirst with
  | true =>
    rw [closeWindow_of_holds_first judged first]
    exact ⟨_, by simp [time], by simp [adj], by simp [demands], rfl, rfl, rfl⟩
  | false =>
    rw [closeWindow_of_verdicts_first judged first]
    exact ⟨_, time, adj, demands, by simp, by simp, by simp⟩

/-- The demands on their way to a string. -/
def demandsFor (i : StringIdx) (l : List Demand) : List Demand := l.filter fun d => decide (d.string = i)

/-- What a close that is judged in its step leaves of a present string: what its entry alone makes of it. -/
theorem closeWindow_of_present {c : Settings} {order : CloseOrder} {i : StringIdx} (s : State) (judged : order.verdictsWait = false)
    (present : c.strings[i].present = true) :
    ∃ t, t.adjOf i = s.adjOf i ∧ demandsFor i t.demands = demandsFor i s.demands ∧ t.nowMs = s.nowMs ∧ t.seconds = s.seconds ∧
      (closeWindow c order s).adjOf i = (takeVerdict c ⟨i, (closeInput c s).judgement i⟩ t).adjOf i ∧
      demandsFor i (closeWindow c order s).demands =
        demandsFor i (takeVerdict c ⟨i, (closeInput c s).judgement i⟩ t).demands ∧
      ∀ r, RecentRecord r 0 (takeVerdict c ⟨i, (closeInput c s).judgement i⟩ t).flg.records →
        r ∈ (closeWindow c order s).flg.records := by
  obtain ⟨x, time, adj, demands, adj', flg', demands'⟩ := closeWindow_takes_verdicts (c := c) s judged
  obtain ⟨t, ⟨-, time', -, -, before, -, quiet⟩, ⟨-, -, -, -, after, -, quiet'⟩, stays⟩ :=
    takeVerdicts_at (nodup_verdicts c s) (length_verdicts_le c s) (mem_verdicts_of_present s present) x
  have alike : x.adjOf i = s.adjOf i := by rw [State.adjOf, State.adjOf, adj]
  have alike' : (closeWindow c order s).adjOf i = (takeVerdicts c (closeInput c s).verdicts x).adjOf i := by
    rw [State.adjOf, State.adjOf, adj']
  refine ⟨t, before.trans alike, quiet.trans (by rw [demands]; rfl), ?_, ?_, alike'.trans after, ?_, fun r recent => ?_⟩
  · rw [State.nowMs, State.nowMs, time', time]
  · rw [State.seconds, State.seconds, time', time]
  · rw [demands']
    exact quiet'
  · rw [flg']
    exact stays r recent

/-- A string that is not present has no entry. -/
theorem closeWindow_of_absent {c : Settings} {order : CloseOrder} {i : StringIdx} (s : State) (judged : order.verdictsWait = false)
    (absent : c.strings[i].present = false) :
    (closeWindow c order s).adjOf i = s.adjOf i ∧ demandsFor i (closeWindow c order s).demands = demandsFor i s.demands := by
  obtain ⟨x, -, adj, demands, adj', -, demands'⟩ := closeWindow_takes_verdicts (c := c) s judged
  have others : ∀ e ∈ (closeInput c s).verdicts, e.string ≠ i := by
    rintro e mem rfl
    have := (present_of_mem_verdicts mem).1
    rw [absent] at this
    cases this
  obtain ⟨-, -, -, -, same, -, quiet⟩ := sameString_takeVerdicts others x
  refine ⟨?_, ?_⟩
  · have alike : x.adjOf i = s.adjOf i := by rw [State.adjOf, State.adjOf, adj]
    rw [State.adjOf, adj']
    exact same.trans alike
  · rw [demands']
    exact quiet.trans (by rw [demands]; rfl)

/-! ### Judgements and what is written of them -/

theorem judgement_of_verdict_partialWindow {j : Judgement} (v : some j.verdict = some .partialWindow) : j = .partialWindow := by
  cases j <;> simp_all [Judgement.verdict]

theorem judgement_of_verdict_dark_or_held {j : Judgement} (v : some j.verdict = some .dark ∨ some j.verdict = some .held) :
    j = .dark ∨ j = .held := by
  cases j <;> simp_all [Judgement.verdict]

theorem judgement_of_deviation {j : Judgement} {d : Int} (v : j.deviation = some d) : ∃ ref n, j = .full d ref n := by
  cases j <;> simp_all [Judgement.deviation]

/-- A FULL judgement carries its group record's reference and count (R84). -/
theorem groupRecord_of_judgement_full {w : WindowInput} {i : StringIdx} {d ref : Int} {n : Nat}
    (full : w.judgement i = .full d ref n) :
    ∃ record, w.groupRecord w.config.strings[i].group = some record ∧ record.reference = some ref ∧ record.contributors = n := by
  unfold WindowInput.judgement at full
  dsimp only at full
  split_ifs at full
  unfold judge at full
  split at full
  case h_1 => cases full
  case h_2 record recorded =>
    split at full
    case h_1 => cases full
    case h_2 ref' reference =>
      split_ifs at full
      cases full
      exact ⟨record, recorded, reference, rfl⟩

end Sys2Proof.Machine

namespace Sys2Proof.Proofs

open Sys2Proof Sys2Proof.Machine

/-- The rows of R83 and R84 for one entry. -/
theorem verdictChangesTheStrikeCount_entry (c : Settings) (i : StringIdx) (s : State) (d ref : Int) (n : Nat)
    (strike : d < -(c.guardLow : Int) ∨ (c.guardHigh : Int) < d) (reached : c.persistence ≤ (s.adjOf i).strikes + 1) :
    let t := takeVerdict c ⟨i, .full d ref n⟩ s
    let cause : Cause := if d < 0 then .lowOutput else .highOutput
    t.adjOf i = { s.adjOf i with strikes := 0 } ∧ t.paths = s.paths ∧
      (∃ r, t.flg.records.getLast? = some r ∧ r.string = i ∧ r.cause = cause
        ∧ r.detail = d ∧ r.reference = some ref ∧ r.contributors = some n ∧ r.ackBy = none ∧ r.seq = s.flg.nextSeq
        ∧ r.outcome = (if c.strings[i].action = .reportOnly then .reported else .isolated)) ∧
      (c.strings[i].action = .reportOnly → t.hold i = s.hold i ∧ t.demands = s.demands) ∧
      (c.strings[i].action = .isolate → t.demands = s.demands ++ [⟨i, .fault cause, c.rampSteps⟩]) := by
  obtain ⟨adj, record, -, demands, held⟩ := takeVerdict_declares (ref := ref) (n := n) strike reached
  have outcome := (performanceFault_fields c i d ref n).2.1
  refine ⟨adj, by simp, ⟨_, record, rfl, rfl, rfl, rfl, rfl, rfl, rfl, outcome⟩, fun report => ⟨held report, ?_⟩, fun isolate => ?_⟩
  · rw [demands, if_pos report, List.append_nil]
  · rw [demands, if_neg (by rw [isolate]; decide)]

/-- What the Reference unit has written of a present string at a close. -/
theorem strings_closeWindow {c : Settings} {order : CloseOrder} {i : StringIdx} (s : State) (present : c.strings[i].present = true) :
    (closeWindow c order s).rfu.strings[i] = ⟨(closeInput c s).normalized i, some ((closeInput c s).judgement i).verdict,
      ((closeInput c s).judgement i).deviation⟩ := by
  have rfu : (closeWindow c order s).rfu = (closeInput c s).evaluate s.rfu := (windowClose_leaves c order true s).1
  rw [rfu]
  exact strings_evaluate_of_present (w := closeInput c s) s.rfu present

/-- A set that waits (R85). -/
theorem verdictChangesTheStrikeCount_waiting {c : Settings} {order : CloseOrder} (s : State) (wait : order.verdictsWait = true) :
    let u := closeWindow c order s
    u.adj = s.adj ∧ u.flg = s.flg ∧ u.demands = s.demands ∧
      ∃ set, u.arrivals = s.arrivals ++ (if order.holdsFirst then [.goodRun, .verdicts set] else [.verdicts set, .goodRun]) ∧
        set.map VerdictEntry.string = StringIdx.all.filter (fun i => c.strings[i].present) ∧
        ∀ e ∈ set, u.rfu.strings[e.string].verdict = some e.judgement.verdict ∧ u.rfu.strings[e.string].deviation = e.judgement.deviation := by
  obtain ⟨-, -, adj, flg, demands, -⟩ := evaluatedAtClose_leaves c s
  have waiting := closeWindow_of_waiting (c := c) (s := s) wait
  refine ⟨?_, ?_, ?_, (closeInput c s).verdicts, ?_, map_string_verdicts c s, fun e mem => ?_⟩
  · rw [waiting]
    exact adj
  · rw [waiting]
    exact flg
  · rw [waiting]
    exact demands
  · rw [waiting]
    rfl
  · obtain ⟨present, judgement⟩ := present_of_mem_verdicts mem
    rw [strings_closeWindow s present, judgement]
    exact ⟨rfl, rfl⟩

/-- The strike that reaches P, among the other entries of its set. -/
theorem verdictChangesTheStrikeCount_last_strike {c : Settings} {order : CloseOrder} {i : StringIdx} {d ref : Int} {n : Nat} (s : State)
    (judged : order.verdictsWait = false) (present : c.strings[i].present = true)
    (full : (closeInput c s).judgement i = .full d ref n) (strike : d < -(c.guardLow : Int) ∨ (c.guardHigh : Int) < d)
    (reached : c.persistence ≤ (s.adjOf i).strikes + 1) :
    let u := closeWindow c order s
    let cause : Cause := if d < 0 then .lowOutput else .highOutput
    u.adjOf i = { s.adjOf i with strikes := 0 } ∧
      demandsFor i u.demands = demandsFor i s.demands ++
        (if c.strings[i].action = .reportOnly then [] else [⟨i, .fault cause, c.rampSteps⟩]) ∧
      ∃ q ∈ u.flg.records, q.string = i ∧ q.cause = cause ∧ q.detail = d ∧ q.ackBy = none ∧ q.seconds = s.seconds
        ∧ q.declared = some s.nowMs ∧ q.outcome = (if c.strings[i].action = .reportOnly then .reported else .isolated)
        ∧ ∀ (_ : c.strings[i].group < 8) (record : GroupRecord), u.rfu.groups[c.strings[i].group] = some record →
            q.reference = record.reference ∧ q.contributors = some record.contributors := by
  dsimp only
  obtain ⟨t, same, quiet, now, seconds, adj, demands, stays⟩ := closeWindow_of_present (order := order) s judged present
  rw [full] at adj demands stays
  obtain ⟨adj', -, record, demands', -⟩ := takeVerdict_declares (ref := ref) (n := n) strike (by rw [same]; exact reached)
  refine ⟨by rw [adj, adj', same], ?_, _, stays _ record, rfl, rfl, rfl, rfl, seconds, congrArg some now,
    (performanceFault_fields c i d ref n).2.1, fun group found recorded => ?_⟩
  · rw [demands, demands', demandsFor, List.filter_append, ← quiet]
    congr 1
    split_ifs <;> simp
  · have rfu : (closeWindow c order s).rfu = (closeInput c s).evaluate s.rfu := (windowClose_leaves c order true s).1
    rw [rfu] at recorded
    obtain ⟨same, here, reference, contributors⟩ := groupRecord_of_judgement_full full
    have recorded := ((groups_evaluate (closeInput c s) s.rfu ⟨_, group⟩).symm.trans recorded).symm.trans here
    cases recorded
    rw [reference, contributors]
    exact ⟨rfl, rfl⟩

/-- Settles O21: the one entry; then a set that waits; then a set that is taken, in which each entry acts as if it came alone. -/
theorem verdictChangesTheStrikeCount : Obligations.VerdictChangesTheStrikeCount := by
  refine ⟨fun c i s => ⟨⟨rfl, rfl⟩, rfl, fun d ref n => ⟨fun low high => ?_, fun strike more => ?_, fun strike reached => ?_⟩⟩,
    fun dt order start c => ?_⟩
  · exact takeVerdict_of_inside (by omega)
  · exact takeVerdict_of_strike strike more
  · exact verdictChangesTheStrikeCount_entry c i s d ref n strike reached
  dsimp only
  generalize arrives : start.arrive dt = s
  intro settings full
  subst arrives
  refine ⟨_, exec_windowClose_of_full settings full, fun wait => verdictChangesTheStrikeCount_waiting _ wait, fun judged => ?_⟩
  generalize start.arrive dt = s
  refine ⟨?_, fun i => ⟨fun absent => closeWindow_of_absent s judged absent, fun present => ?_, fun present => ?_, fun d present => ?_⟩⟩
  · obtain ⟨-, -, -, -, -, -, arrivals, -⟩ := evaluatedAtClose_leaves c s
    cases first : order.holdsFirst with
    | true =>
      rw [closeWindow_of_holds_first judged first]
      simpa using arrivals
    | false =>
      rw [closeWindow_of_verdicts_first judged first]
      simpa using arrivals
  all_goals
    rw [strings_closeWindow s present]
    obtain ⟨t, same, quiet, -, -, adj, demands, -⟩ := closeWindow_of_present (order := order) s judged present
  · intro partialWindow
    rw [judgement_of_verdict_partialWindow partialWindow] at adj demands
    rw [adj, takeVerdict_of_partialWindow, State.adjOf_setAdj_self, same]
    exact ⟨rfl, demands.trans quiet⟩
  · intro idle
    rw [takeVerdict_of_dark_or_held (judgement_of_verdict_dark_or_held idle)] at adj demands
    exact ⟨adj.trans same, demands.trans quiet⟩
  · intro _ deviation
    obtain ⟨ref, n, full⟩ := judgement_of_deviation deviation
    refine ⟨fun inside => ?_, fun strike more => ?_, fun strike reached => ?_⟩
    · rw [full, takeVerdict_of_inside inside] at adj demands
      rw [adj, State.adjOf_setAdj_self, same]
      exact ⟨rfl, demands.trans quiet⟩
    · rw [full, takeVerdict_of_strike strike (by rw [same]; exact more)] at adj demands
      rw [adj, State.adjOf_setAdj_self, same]
      exact ⟨rfl, demands.trans quiet⟩
    · exact verdictChangesTheStrikeCount_last_strike s judged present full strike reached

end Sys2Proof.Proofs
end

section
/-! Proofs: the good run and the own digest at a window close (R54 to R56, R144). -/

namespace Sys2Proof.Machine

/-! ### The good run (R144) -/

theorem examined_of_strike {c : Settings} {now : Ms} {strikes : Nat} {h : Hold} (strike : 0 < strikes) :
    h.examined c now strikes = { h with closedSince := some now } := if_pos strike

theorem examined_of_run {c : Settings} {now t : Ms} {h : Hold} (since' : h.closedSince = some t) :
    h.examined c now 0 = if 3600000 * c.goodRun ≤ since now t then { h with retryCount := 0 } else h := by
  simp only [Hold.examined, since']
  rfl

/-- The examination by its rows. -/
theorem examined_rows (c : Settings) (now : Ms) (strikes : Nat) (h : Hold) :
    (0 < strikes → h.examined c now strikes = { h with closedSince := some now }) ∧
    (strikes = 0 → ∀ t, h.closedSince = some t →
      (3600000 * c.goodRun ≤ since now t → h.examined c now strikes = { h with retryCount := 0 }) ∧
      (since now t < 3600000 * c.goodRun → h.examined c now strikes = h)) := by
  refine ⟨examined_of_strike, fun calm t since' => ?_⟩
  subst calm
  rw [examined_of_run since']
  exact ⟨fun whole => if_pos whole, fun short => if_neg (Nat.not_le.2 short)⟩

/-- An entry that does not bring the count to P leaves the holds. -/
theorem hold_takeVerdict_of_short {c : Settings} {i : StringIdx} {j : Judgement} {s : State}
    (short : (s.adjOf i).strikes + 1 < c.persistence) : (takeVerdict c ⟨i, j⟩ s).hold i = s.hold i := by
  cases j with
  | partialWindow | dark | held => rfl
  | full d ref n =>
    by_cases strike : d < -(c.guardLow : Int) ∨ (c.guardHigh : Int) < d
    · rw [takeVerdict_of_strike strike short]
      rfl
    · rw [takeVerdict_of_inside strike]
      rfl

/-- A set whose entry for a string does not bring its count to P leaves the string's hold part. -/
theorem hold_takeVerdicts_of_short {c : Settings} {i : StringIdx} (s : State) {x : State}
    (short : (x.adjOf i).strikes + 1 < c.persistence) : (takeVerdicts c (closeInput c s).verdicts x).hold i = x.hold i := by
  cases present : c.strings[i].present with
  | true =>
    obtain ⟨t, ⟨-, -, -, -, adj, hold, -⟩, ⟨-, -, -, -, -, hold', -⟩, -⟩ :=
      takeVerdicts_at (nodup_verdicts c s) (length_verdicts_le c s) (mem_verdicts_of_present s present) x
    exact hold'.trans ((hold_takeVerdict_of_short (by dsimp only at adj ⊢; rw [adj]; exact short)).trans hold)
  | false =>
    have others : ∀ e ∈ (closeInput c s).verdicts, e.string ≠ i := by
      rintro e mem rfl
      have := (present_of_mem_verdicts mem).1
      rw [present] at this
      cases this
    obtain ⟨-, -, -, -, -, hold, -⟩ := sameString_takeVerdicts others x
    exact hold

theorem hold_closeWindow_of_short {c : Settings} {order : CloseOrder} {i : StringIdx} {s : State} (judged : order.verdictsWait = false)
    (short : (s.adjOf i).strikes + 1 < c.persistence) :
    (closeWindow c order s).hold i = if s.present i = true ∧ (s.path i).state = .closed
      then (s.hold i).examined c s.nowMs (if order.holdsFirst then s.adjOf i else (closeWindow c order s).adjOf i).strikes
      else s.hold i := by
  obtain ⟨settings, -, adj, -, -, hld, -, paths, now⟩ := evaluatedAtClose_leaves c s
  have present : (evaluatedAtClose c s).present i = s.present i := by rw [State.present, State.present, settings]
  have path : (evaluatedAtClose c s).path i = s.path i := by rw [State.path, State.path, paths]
  have adjOf : (evaluatedAtClose c s).adjOf i = s.adjOf i := by rw [State.adjOf, State.adjOf, adj]
  have hold : (evaluatedAtClose c s).hold i = s.hold i := by rw [State.hold, State.hold, hld]
  cases first : order.holdsFirst with
  | true =>
    have short' : ((goodRun c (evaluatedAtClose c s)).adjOf i).strikes + 1 < c.persistence := by
      have same : (goodRun c (evaluatedAtClose c s)).adjOf i = (evaluatedAtClose c s).adjOf i := by simp
      rw [same, adjOf]
      exact short
    rw [closeWindow_of_holds_first judged first, hold_takeVerdicts_of_short s short', hold_goodRun, present, path, adjOf, hold, now]
    rfl
  | false =>
    have held := hold_takeVerdicts_of_short s (c := c) (x := evaluatedAtClose c s) (i := i) (by rw [adjOf]; exact short)
    rw [closeWindow_of_verdicts_first judged first, hold_goodRun, held]
    simp [present, path, hold, now]

/-! ### The own digest (R54, R55) -/

/-- Of all that a close does, the offer of the digest alone reaches the Array bus unit, and in RUN alone (R56). -/
theorem abu_closeWindow {c : Settings} (order : CloseOrder) {s : State} (settings : s.settings = some c) :
    (closeWindow c order s).abu = if s.abu.silent then s.abu else
      s.abu.offerSingle c s.timeUs .digest (digestBody (s.wac.windowNumber + 1) (closeInput c s).digestGroups) := by
  have judged : (closeWindow c order s).abu = (evaluatedAtClose c s).abu := by
    rw [closeWindow_eq, judgeWindow, closeArrivals]
    split_ifs <;> simp [takeArrival, evaluatedAtClose]
  have aged : (agedAtClose c s).settings = some c := settings
  have offered : ∀ body : List Byte, (offerDigest body ((agedAtClose c s).withRfu ((closeInput c s).evaluate (agedAtClose c s).rfu))).abu =
      if s.abu.silent then s.abu else s.abu.offerSingle c s.timeUs .digest body := fun body => by
    simp only [offerDigest, offerToBus, State.withRfu_settings, aged]
    split_ifs with silent loud
    · rfl
    · exact absurd silent loud
    · rename_i quiet
      exact absurd quiet silent
    · rfl
  rw [judged, ← (closeWindow_fields s.wac).2]
  exact offered _

/-! ### The bytes of a digest body (section 12.2) -/

theorem length_groupEntryBytes (g : GroupEntry) : (groupEntryBytes g).length = 5 := rfl

theorem getD_of_slice {α : Type} {l p : List α} {n m j : Nat} (slice : (l.drop n).take m = p) (inside : j < m) (d : α) :
    l.getD (n + j) d = p.getD j d := by
  rw [← slice, List.getD_eq_getElem?_getD, List.getD_eq_getElem?_getD, List.getElem?_take_of_lt inside, List.getElem?_drop]

/-- The five bytes of an entry stand together. -/
theorem slice_digestBody {window : BitVec 16} {groups : List GroupEntry} {k : Nat} {g : GroupEntry} (found : groups[k]? = some g) :
    ((digestBody window groups).drop (3 + 5 * k)).take 5 = groupEntryBytes g := by
  rw [← List.drop_drop]
  exact flatten_piece length_groupEntryBytes found

/-- The flag byte of an entry. -/
theorem flags_groupEntry (valid : Bool) (m : Option Int) :
    let b := (byteOf (valid.toNat + 2 * m.isSome.toNat)).toNat
    (b.testBit 0 = true ↔ valid = true) ∧ (b.testBit 1 = true ↔ m ≠ none) ∧ b ≤ 3 := by
  rw [Option.ne_none_iff_isSome]
  generalize m.isSome = carries
  cases valid <;> cases carries <;> decide

/-- The group list of the own digest, in the words of the state before the close. -/
theorem digestGroups_closeInput (c : Settings) (s : State) (own : Nat → List Int) (same : ∀ g, (closeInput c s).ownValues g = own g) :
    (closeInput c s).digestGroups = ([0, 1, 2, 3, 4, 5, 6, 7].filter fun g =>
      StringIdx.all.any fun i => c.strings[i].present && decide (c.strings[i].group = g)).map fun g =>
        ⟨g, (own g).length, if own g = [] then none else some (median (own g)), (closeInput c s).boxValid⟩ := by
  rw [← funext same]
  rfl

end Sys2Proof.Machine

namespace Sys2Proof.Proofs

open Sys2Proof Sys2Proof.Machine

/-- Settles O24: the Hold manager's own handling, and the string on which the close declares nothing. -/
theorem goodRunRestoresTheBudget : Obligations.GoodRunRestoresTheBudget := by
  refine ⟨fun c s i => ⟨fun other => ?_, fun present closed => ?_⟩, fun dt order start c => ?_⟩
  · rw [hold_goodRun, if_neg]
    rintro ⟨present, closed⟩
    rcases other with absent | open'
    · rw [present] at absent
      cases absent
    · exact open' closed
  · dsimp only
    rw [hold_goodRun, if_pos ⟨present, closed⟩]
    exact examined_rows c _ _ _
  · dsimp only
    generalize arrives : start.arrive dt = s
    intro settings full
    subst arrives
    refine ⟨_, exec_windowClose_of_full settings full, fun wait => ?_, fun judged i short => ?_⟩
    · obtain ⟨-, -, -, -, -, hld, -⟩ := evaluatedAtClose_leaves c (start.arrive dt)
      rw [closeWindow_of_waiting wait]
      exact hld
    · have held := hold_closeWindow_of_short judged short
      refine ⟨fun other => held.trans (if_neg ?_), fun present closed => ?_⟩
      · rintro ⟨present, closed⟩
        rcases other with absent | open'
        · rw [present] at absent
          cases absent
        · exact open' closed
      · rw [held.trans (if_pos ⟨present, closed⟩)]
        exact examined_rows c _ _ _

/-- The layout of a DIGEST body. -/
theorem digestBody_layout (window : BitVec 16) (groups : List GroupEntry) (few : groups.length ≤ 8) :
    let body := digestBody window groups
    let byte := fun k => (body.getD k 0).toNat
    body.length = 3 + 5 * groups.length ∧ byte 0 * 256 + byte 1 = window.toNat ∧ byte 2 = groups.length ∧
    ∀ (k : Nat) (g : GroupEntry), groups[k]? = some g → g.group ≤ 7 → g.count ≤ 12 → -4000 ≤ g.median.getD 0 → g.median.getD 0 ≤ 4000 →
      byte (3 + 5 * k) = g.group ∧ byte (4 + 5 * k) = g.count ∧
      ((byte (5 + 5 * k)).testBit 0 = true ↔ g.valid = true) ∧ ((byte (5 + 5 * k)).testBit 1 = true ↔ g.median ≠ none) ∧
      byte (5 + 5 * k) ≤ 3 ∧ (BitVec.ofNat 16 (byte (6 + 5 * k) * 256 + byte (7 + 5 * k))).toInt = g.median.getD 0 := by
  refine ⟨?_, word_be16 window.isLt, toNat_byteOf_of_lt (by omega), fun k g found group count low high => ?_⟩
  · rw [digestBody, List.length_append, length_flatten_pieces length_groupEntryBytes]
    rfl
  · have byte (j : Nat) (inside : j < 5) := getD_of_slice (slice_digestBody (window := window) found) inside 0
    have second : 4 + 5 * k = 3 + 5 * k + 1 := by omega
    have third : 5 + 5 * k = 3 + 5 * k + 2 := by omega
    have fourth : 6 + 5 * k = 3 + 5 * k + 3 := by omega
    have fifth : 7 + 5 * k = 3 + 5 * k + 4 := by omega
    obtain ⟨valid, some', small⟩ := flags_groupEntry g.valid g.median
    dsimp only
    rw [second, third, fourth, fifth, byte 1 (by decide), byte 2 (by decide), byte 3 (by decide), byte 4 (by decide),
      ← Nat.add_zero (3 + 5 * k), byte 0 (by decide)]
    refine ⟨toNat_byteOf_of_lt (by omega), toNat_byteOf_of_lt (by omega), valid, some', small, ?_⟩
    refine Eq.trans ?_ (toInt_signed16 (x := g.median.getD 0) (by omega) (by omega))
    exact congrArg (fun n => (BitVec.ofNat 16 n).toInt) (word_signed16 _)

/-- Settles O23: the median of a list, the layout of the body, and the offer by the queue and the transmitter it finds. -/
theorem windowCloseOffersTheDigest : Obligations.WindowCloseOffersTheDigest := by
  refine ⟨fun l sorted same ascends => ⟨median_of_odd same ascends, fun even _ => median_of_even same ascends even⟩,
    digestBody_layout, fun dt order start c => ?_⟩
  dsimp only
  generalize arrives : start.arrive dt = s
  intro settings full
  subst arrives
  refine ⟨_, exec_windowClose_of_full settings full, ?_⟩
  obtain ⟨-, -, means, valid⟩ := windowClose_leaves c order order.demandsWait (start.arrive dt)
  rw [means, valid]
  generalize start.arrive dt = s at settings
  have abu := abu_closeWindow order settings
  rw [digestGroups_closeInput c s _ (ownValues_closeInput c s)] at abu
  simp only [endStep_frame]
  rw [abu]
  generalize digestBody _ _ = body
  obtain ⟨-, -, replaced, absent, normal, -⟩ := offersTakeTheirPlaceInTheQueue c s.timeUs 0 body s.abu
  obtain ⟨dropped, taken⟩ := normal .digest (by decide)
  have loud (run : s.abu.silent = false) : ¬ s.abu.silent = true := by rw [run]; decide
  refine ⟨fun silent => if_pos silent, fun run queued => ?_, fun run unqueued => ?_, fun run unqueued => ?_⟩
  · rw [if_neg (loud run)]
    exact replaced .digest queued
  all_goals
    have none' : ∀ e ∈ s.abu.queue, e.kind ≠ .digest := fun e mem kind => unqueued ⟨e, mem, kind⟩
    rw [if_neg (loud run), absent .digest none']
  · exact dropped
  · exact taken

end Sys2Proof.Proofs
end

section
/-! Proofs: the shutdown line (R147, R148). -/

namespace Sys2Proof.Machine

section
variable {dt : Nat} {start s : State} (arrives : start.arrive dt = s)
include arrives

theorem exec_shutdown_of_no_change (same : s.hld.input = s.hld.shutdown) :
    exec (.shutdownAssertion dt) start = .next s ∧ exec (.shutdownDeassertion dt) start = .next s := by
  subst arrives
  have contrary {x y : Bool} (apart : x ≠ y) : ¬ ((start.arrive dt).hld.input = x ∧ (start.arrive dt).hld.shutdown = y) :=
    fun ⟨input, level⟩ => apart (input.symm.trans (same.trans level))
  refine ⟨?_, ?_⟩
  · dsimp only [exec, execShutdownAssertion]
    rw [if_neg (contrary (by decide))]
  · dsimp only [exec, execShutdownDeassertion]
    rw [if_neg (contrary (by decide))]

theorem exec_shutdownAssertion_of_change (input : s.hld.input = true) (level : s.hld.shutdown = false) :
    exec (.shutdownAssertion dt) start =
      .next (shutdownDemands (forPresent (fun _ h => h.addShutdown) (s.withHld { s.hld with shutdown := true }))) := by
  subst arrives
  dsimp only [exec, execShutdownAssertion]
  rw [if_pos ⟨input, level⟩]

theorem exec_shutdownDeassertion_of_change (input : s.hld.input = false) (level : s.hld.shutdown = true) :
    exec (.shutdownDeassertion dt) start =
      .next (forPresent (fun i h => { h with shutdown := false }.addStartup (staggerEnd s.nowMs i))
        (s.withHld { s.hld with shutdown := false })) := by
  subst arrives
  dsimp only [exec, execShutdownDeassertion]
  rw [if_pos ⟨input, level⟩]

end

/-! ### The demands of an assertion -/

/-- The demands of an assertion are those on the present strings. -/
theorem shutdownDemands_eq (s : State) :
    shutdownDemands s = (StringIdx.all.filter s.present).foldl (fun t i => openDemand i .shutdown 1 t) s := by
  unfold shutdownDemands
  generalize StringIdx.all = l
  induction l generalizing s with
  | nil => rfl
  | cons i l ih =>
    rw [List.foldl_cons, ih]
    cases present : s.present i with
    | true =>
      have same : (openDemand i .shutdown 1 s).present = s.present := funext fun j => by simp
      rw [List.filter_cons_of_pos present, List.foldl_cons, if_pos rfl, same]
    | false => rw [List.filter_cons_of_neg (by rw [present]; decide), if_neg (by decide)]

theorem mem_presentStrings {s : State} {i : StringIdx} : i ∈ StringIdx.all.filter s.present ↔ s.present i = true := by
  rw [List.mem_filter]
  exact and_iff_right (StringIdx.mem_all i)

/-- The path part and the hold part of one string after an assertion's demands. -/
theorem shutdownDemands_string (s : State) (i : StringIdx) :
    (shutdownDemands s).path i = (if s.present i = true then (s.path i).demanded s.nowMs .shutdown 1 else s.path i) ∧
    (shutdownDemands s).hold i =
      if s.present i = true ∧ (s.path i).state = .closed then { s.hold i with closedSince := none } else s.hold i := by
  obtain ⟨path, hold⟩ := foldl_openDemand .shutdown 1 (StringIdx.all.filter s.present) (StringIdx.nodup_all.filter _) s i
  rw [shutdownDemands_eq, path, hold]
  simp only [mem_presentStrings]
  exact ⟨trivial, trivial⟩

@[simp] theorem shutdownDemands_leaves (s : State) :
    (shutdownDemands s).nvs = s.nvs ∧ (shutdownDemands s).flg = s.flg ∧ (shutdownDemands s).abu = s.abu ∧
    (shutdownDemands s).acu = s.acu ∧ (shutdownDemands s).boxTrip = s.boxTrip ∧ (shutdownDemands s).demands = s.demands ∧
    (shutdownDemands s).hld.shutdown = s.hld.shutdown ∧ (shutdownDemands s).hld.input = s.hld.input := by
  rw [shutdownDemands_eq]
  exact ⟨foldl_keeps State.nvs _ (by intros; simp) _ _, foldl_keeps State.flg _ (by intros; simp) _ _,
    foldl_keeps State.abu _ (by intros; simp) _ _, foldl_keeps State.acu _ (by intros; simp) _ _,
    foldl_keeps State.boxTrip _ (by intros; simp) _ _, foldl_keeps State.demands _ (by intros; simp) _ _,
    foldl_keeps (fun t : State => t.hld.shutdown) _ (by intros; simp) _ _,
    foldl_keeps (fun t : State => t.hld.input) _ (by intros; simp) _ _⟩

/-! ### A 1-step demand by path state -/

section
variable {now : Ms} {reason : Reason} {p : Path}

theorem demanded_one_of_connected (at' : p.state = .closed ∨ p.state = .closing) :
    p.demanded now reason 1 = { p with
      state := .opening, stepCount := some 1, stepsLeft := some 1, deadline := some (now + ms 2)
      reason := some reason, isolationStart := some now } := by
  obtain ⟨level, opens⟩ := demanded_of_connected (now := now) (reason := reason) (n := 1) (connected_iff.2 at')
  rw [opens, Path.beginOpening, rampDownSteps_one]

theorem demanded_of_making {n : Nat} (at' : p.state = .making) : p.demanded now reason n = { p with
    state := .parting, deadline := some (now + ms 30), reason := some reason, isolationStart := some now } := by
  simp only [Path.demanded, at']

theorem demanded_one_of_opening (at' : p.state = .opening) (more : p.stepsLeft ≠ some 1) :
    p.demanded now reason 1 = { p with stepCount := some 1, stepsLeft := some 1 } := by
  simp only [Path.demanded, at']
  rw [if_pos ⟨trivial, more⟩]

end

end Sys2Proof.Machine

namespace Sys2Proof.Proofs

open Sys2Proof Sys2Proof.Machine

/-- Settles O25: no change, an assertion string by string, and a deassertion. -/
theorem shutdownLineHoldsAndReturnsTheStrings : Obligations.ShutdownLineHoldsAndReturnsTheStrings := by
  intro dt start
  dsimp only
  generalize arrives : start.arrive dt = s
  refine ⟨exec_shutdown_of_no_change arrives, fun input level => ?_, fun input level => ?_⟩
  · refine ⟨_, exec_shutdownAssertion_of_change arrives input level, by simp, by simpa using input, by simp, by simp, by simp,
      by simp, by simp, by simp, fun i => ?_⟩
    obtain ⟨path, hold⟩ := shutdownDemands_string
      (forPresent (fun _ h => h.addShutdown) (s.withHld { s.hld with shutdown := true })) i
    rw [path, hold, hold_forPresent]
    simp only [forPresent_frame, State.withHld_present, State.withHld_path, State.withHld_nowMs]
    have held : (s.withHld { s.hld with shutdown := true }).hold i = s.hold i := rfl
    rw [held]
    refine ⟨fun absent => ?_, fun present => ?_, fun present at' => ?_, fun present at' => ?_, fun present at' more => ?_,
      fun at' last => ?_, fun at' => ?_⟩
    · simp [absent]
    · simp only [present, if_true, true_and]
      split_ifs <;> exact ⟨rfl, rfl, rfl, rfl, rfl, rfl, rfl, rfl⟩
    · rw [if_pos present, demanded_one_of_connected at']
    · rw [if_pos present, demanded_of_making at']
    · rw [if_pos present, demanded_one_of_opening at' more]
    · rw [demanded_eq (by tauto), ite_self]
    · rw [demanded_eq (by tauto), ite_self]
  · refine ⟨_, exec_shutdownDeassertion_of_change arrives input level, fun i => ⟨fun absent => ?_, fun present => ?_⟩⟩
    all_goals
      have back := hold_forPresent (fun i h => { h with shutdown := false }.addStartup (staggerEnd s.nowMs i))
        (s.withHld { s.hld with shutdown := false }) i
    · exact back.trans (if_neg (by rw [State.withHld_present, absent]; decide))
    · exact back.trans (if_pos present)

end Sys2Proof.Proofs
end

section
/-! Proofs: the completion of store writes (R150, R176, R179, R180). -/

namespace Sys2Proof.Machine

/-! ### Programming an erased page, whatever the form of the store

The laws of the memory ask for its canonical form. A page is erased before it is programmed, so no entry of it is left, and then the
form does not matter. -/

/-- A write of an address that is not listed, below, between or above the entries that are. -/
theorem read_write_of_unlisted {m : Memory} {a : Nat} (b : Byte) (unlisted : ∀ c ∈ m, c.1 ≠ a) (x : Nat) :
    Memory.read (Memory.write m a b) x = if x = a then b else Memory.read m x := by
  have absent : ∀ l : Memory, (∀ c ∈ l, c.1 ≠ a) → Memory.read l a = erasedByte := fun l => by
    induction l with
    | nil => exact fun _ => rfl
    | cons c l ih =>
      intro other
      rw [List.forall_mem_cons] at other
      exact (if_neg other.1).trans (ih other.2)
  induction m with
  | nil =>
    unfold Memory.write
    split
    case isTrue erased =>
      split_ifs
      · exact erased.symm
      · rfl
    case isFalse =>
      simp only [Memory.read, eq_comm]
  | cons d m ih =>
    obtain ⟨k, e⟩ := d
    have here := unlisted (k, e) List.mem_cons_self
    have apart : ¬ a = k := fun same => here same.symm
    unfold Memory.write
    simp only [apart, if_false]
    split
    case isTrue =>
      split
      case isTrue erased =>
        split_ifs with same
        · rw [same, erased]
          exact absent _ unlisted
        · rfl
      case isFalse =>
        rw [Memory.read]
        simp only [eq_comm]
    case isFalse =>
      rw [Memory.read, Memory.read, ih fun c mem => unlisted c (List.mem_cons_of_mem _ mem)]
      split_ifs with key same
      · exact absurd (key.trans same) here
      · rfl
      · rfl
      · rfl

theorem read_writeBytes_of_unlisted {m : Memory} {a : Nat} {l : List Byte} (unlisted : ∀ c ∈ m, a ≤ c.1 → ¬ c.1 < a + l.length)
    (x : Nat) : Memory.read (Memory.writeBytes m a l) x =
      if a ≤ x ∧ x < a + l.length then l.getD (x - a) erasedByte else Memory.read m x := by
  induction l generalizing m a with
  | nil => simp [Memory.writeBytes]
  | cons b l ih =>
    rw [List.length_cons] at unlisted ⊢
    have rest : ∀ c ∈ Memory.write m a b, a + 1 ≤ c.1 → ¬ c.1 < a + 1 + l.length := by
      intro c mem low high
      rcases mem_write mem with old | rfl
      · exact unlisted c old (by omega) (by omega)
      · exact absurd low (by dsimp only; omega)
    rw [Memory.writeBytes, ih rest, read_write_of_unlisted b fun c mem same => unlisted c mem (by omega) (by omega)]
    by_cases first : x = a
    · subst first
      rw [if_neg (by omega), if_pos rfl, if_pos (by omega), Nat.sub_self]
      rfl
    · by_cases later : a + 1 ≤ x ∧ x < a + 1 + l.length
      · have next : x - a = x - (a + 1) + 1 := by omega
        rw [if_pos later, if_pos (by omega), next, List.getD_cons_succ]
      · rw [if_neg later, if_neg first, if_neg (by omega)]

/-- A programmed page holds its content; every other page is left. -/
theorem read_programPage_of_any (m : Memory) (p : Nat) (l : List Byte) (a : Nat) :
    Memory.read (Memory.programPage m p l) a =
      if a / 64 = p then (l.take 64).getD (a % 64) erasedByte else Memory.read m a := by
  have short : (l.take 64).length ≤ 64 := by simp
  have unlisted : ∀ c ∈ Memory.erasePage m p, 64 * p ≤ c.1 → ¬ c.1 < 64 * p + (l.take 64).length := by
    intro c mem low high
    have outside := (List.mem_filter.1 mem).2
    exact absurd (show c.1 / 64 = p by omega) (by simpa using outside)
  rw [Memory.programPage, read_writeBytes_of_unlisted unlisted, read_erasePage]
  by_cases own : a / 64 = p
  · have offset : a - 64 * p = a % 64 := by omega
    by_cases held : 64 * p ≤ a ∧ a < 64 * p + (l.take 64).length
    · rw [if_pos held, if_pos own, offset]
    · rw [if_neg held, if_pos own, if_pos own, List.getD_eq_default _ _ (by omega)]
  · rw [if_neg (by omega), if_neg own, if_neg own]

/-! ### The end of a write -/

/-- The page that a completed write has programmed, and the pages it has not. -/
theorem read_programmed (w : Write) (m : Memory) (a : Nat) :
    let page := if w.kind = .program then w.page else 2
    (w.kind ≠ .erase → a / 64 = page → Memory.read (programmed w m) a = (w.content.take 64).getD (a % 64) 0xFF) ∧
    (w.kind = .erase ∨ a / 64 ≠ page → Memory.read (programmed w m) a = Memory.read m a) := by
  cases kind : w.kind with
  | erase =>
    simp only [programmed, kind]
    exact ⟨fun other => absurd rfl other, fun _ => trivial⟩
  | lockoutPage | sealing | program =>
    simp only [programmed, kind, read_programPage_of_any]
    refine ⟨fun _ own => if_pos own, fun other => if_neg ?_⟩
    rcases other with absurd' | other
    · cases absurd'
    · exact other

section
variable {w : Write} {s : State}

theorem finishWrite_of_idle (idle : s.nvs.pendingMask = false) : finishWrite w s = s.withNvs { s.nvs with
    store := programmed w s.nvs.store, sealSet := sealAfter w s.nvs.sealSet, write := none, pendingMask := false } := by
  rw [finishWrite]
  exact if_neg (by rw [idle]; decide)

theorem finishWrite_of_pending (pending : s.nvs.pendingMask = true) : finishWrite w s = s.withNvs { s.nvs with
    store := Memory.erasePage (programmed w s.nvs.store) 2, sealSet := sealAfter w s.nvs.sealSet, pendingMask := false
    write := some ⟨.lockoutPage, 2, lockoutPageBytes s.lockoutMask s.manualMask, s.nowMs + ms 6, false⟩ } := by
  rw [finishWrite]
  exact if_pos pending

theorem sealAfter_eq (w : Write) (sealSet : Bool) :
    sealAfter w sealSet = if w.kind = .erase then false else if w.kind = .sealing then true else sealSet := by
  unfold sealAfter
  cases w.kind <;> rfl

/-- The store unit after a completed write. -/
theorem nvs_finishWrite (w : Write) (s : State) :
    (finishWrite w s).nvs.pendingMask = false ∧ (finishWrite w s).nvs.sealSet = sealAfter w s.nvs.sealSet ∧
    (s.nvs.pendingMask = false → (finishWrite w s).nvs.write = none) ∧
    (s.nvs.pendingMask = true → (finishWrite w s).nvs.write =
      some ⟨.lockoutPage, 2, lockoutPageBytes s.lockoutMask s.manualMask, s.nowMs + ms 6, false⟩) ∧
    ∀ a, (s.nvs.pendingMask = true → a / 64 ≠ 2) →
      Memory.read (finishWrite w s).nvs.store a = Memory.read (programmed w s.nvs.store) a := by
  cases pending : s.nvs.pendingMask with
  | false =>
    rw [finishWrite_of_idle pending]
    exact ⟨rfl, rfl, fun _ => rfl, (by rintro ⟨⟩), fun _ _ => rfl⟩
  | true =>
    rw [finishWrite_of_pending pending]
    exact ⟨rfl, rfl, (by rintro ⟨⟩), fun _ => rfl, fun a outside => (read_erasePage _ _ _).trans (if_neg (outside rfl))⟩

theorem writeDue_of {kind : WriteKind} (writing : s.nvs.write = some w) (same : w.kind = kind) (due : reached s.nowMs w.done = true) :
    writeDue kind s = some w := by
  simp only [writeDue, writing]
  exact if_pos ⟨same, due⟩

/-- Each of the four completions ends the write of its own kind; those of the service link send the DONE still owed. -/
theorem exec_writeComplete {dt : Nat} {start : State} {command : Instr} (arrives : start.arrive dt = s)
    (own : (command, w.kind) ∈ [(Instr.lockoutPageWriteComplete dt, WriteKind.lockoutPage), (.programComplete dt, .program),
      (.eraseComplete dt, .erase), (.sealComplete dt, .sealing)])
    (writing : s.nvs.write = some w) (due : reached s.nowMs w.done = true) :
    exec command start = .next (if w.kind ≠ .lockoutPage then completeService w s else finishWrite w s) := by
  subst arrives
  simp only [List.mem_cons, List.not_mem_nil, or_false, Prod.mk.injEq] at own
  rcases own with ⟨rfl, kind⟩ | ⟨rfl, kind⟩ | ⟨rfl, kind⟩ | ⟨rfl, kind⟩
  · simp only [exec, execLockoutPageWriteComplete, writeDue_of writing kind due]
    rw [if_neg (not_not.2 kind)]
  · simp only [exec, execProgramComplete, writeDue_of writing kind due]
    rw [if_pos (by rw [kind]; decide)]
  · simp only [exec, execEraseComplete, writeDue_of writing kind due]
    rw [if_pos (by rw [kind]; decide)]
  · simp only [exec, execSealComplete, writeDue_of writing kind due]
    rw [if_pos (by rw [kind]; decide)]

theorem completeService_nvs : (completeService w s).nvs = (finishWrite w s).nvs := by
  unfold completeService
  dsimp only
  split <;> rfl

theorem completeService_svl :
    (completeService w s).svl = if w.answerOwed = true then s.svl.answer s.timeUs [0] else s.svl := by
  unfold completeService
  dsimp only
  split
  · simp [sendAnswer, statusDone]
  · simp

end

end Sys2Proof.Machine

namespace Sys2Proof.Proofs

open Sys2Proof Sys2Proof.Machine

/-- Settles O50. -/
theorem writesCompleteWithTheirContent : Obligations.WritesCompleteWithTheirContent := by
  intro dt start w command
  dsimp only
  generalize arrives : start.arrive dt = s
  intro own writing due
  have nvs : (if w.kind ≠ .lockoutPage then completeService w s else finishWrite w s).nvs = (finishWrite w s).nvs := by
    split
    · exact completeService_nvs
    · rfl
  obtain ⟨pending, sealed, idle, begun, reads⟩ := nvs_finishWrite w s
  refine ⟨_, exec_writeComplete arrives own writing due, ?_⟩
  rw [nvs]
  refine ⟨pending, sealed.trans (sealAfter_eq w _), idle, begun, ?_, fun a outside => ?_⟩
  · by_cases service : w.kind ≠ .lockoutPage
    · rw [if_pos service, completeService_svl]
      simp only [service, ne_eq, not_false_eq_true, true_and]
    · rw [if_neg service, if_neg (fun both => service both.1)]
      simp
  · rw [reads a outside]
    exact read_programmed w s.nvs.store a

end Sys2Proof.Proofs
end

section
/-! Proofs: the service link: reads, programming commands and the session (R177 to R181). -/

namespace Sys2Proof.Machine

/-! ### A byte between two commands -/

/-- The part as a byte of the service link finds it, its silence begun anew. -/
def State.heard (s : State) : State := s.withSvl { s.svl with lastByte := s.nowMs }

section
variable {s : State}

/-- A byte at the very moment of the byte before: nothing has fallen silent. -/
theorem linkByte_of_now (b : Byte) (now : s.svl.lastByte = s.nowMs) : linkByte s b = sessionByte b s := by
  have awake : sessionExpired s = false := by simp [sessionExpired, Svl.silentFor, now, since]
  have sounding : s.svl.silentFor 100 s.nowMs = false := by simp [Svl.silentFor, now, since]
  have settled : settleSilence s = s := by simp [settleSilence, awake, sounding]
  have same : s.withSvl { s.svl with lastByte := s.nowMs } = s := by rw [← now]; rfl
  unfold linkByte
  dsimp only
  rw [settled, same]

/-- A byte within 100 ms of the byte before. -/
theorem settleSilence_of_sounding (sounding : since s.nowMs s.svl.lastByte < 100) : settleSilence s = s := by
  have awake : ¬ sessionExpired s = true := by
    simp only [sessionExpired, Svl.silentFor, Bool.and_eq_true, decide_eq_true_eq, not_and]
    omega
  have short : ¬ s.svl.silentFor 100 s.nowMs = true := by
    simp only [Svl.silentFor, decide_eq_true_eq]
    omega
  rw [settleSilence, if_neg awake, if_neg short]

/-- A byte with no session open finds nothing that a silence could end. -/
theorem linkByte_of_closed (b : Byte) (closed : s.svl.session = .none) (idle : s.svl.receiving = []) (heeding : s.svl.skipping = false) :
    linkByte s b = sessionByte b s.heard := by
  have awake : ¬ sessionExpired s = true := by simp [sessionExpired, closed]
  have dropped : s.withSvl s.svl.dropCommand = s := by
    rw [Svl.dropCommand, ← idle, ← heeding]
    rfl
  have settled : settleSilence s = s := by
    rw [settleSilence, if_neg awake, dropped, ite_self]
  unfold linkByte
  dsimp only
  rw [settled]
  rfl

end

/-! ### Which byte is which command -/

theorem commandByte_of_known (s : State) :
    commandByte 0xA7 s = keepReceiving [0xA7] s ∧ commandByte 0x41 s = readFactory s ∧ commandByte 0x42 s = keepReceiving [0x42] s ∧
    commandByte 0x44 s = programPage s ∧ commandByte 0x45 s = verifyPage s ∧ commandByte 0x46 s = eraseStore s ∧
    commandByte 0x47 s = sealStore s ∧ commandByte 0x48 s = restartPart s := ⟨rfl, rfl, rfl, rfl, rfl, rfl, rfl, rfl⟩

theorem commandByte_of_unknown {b : Byte} (unknown : b ∉ serviceCommandBytes) (s : State) : commandByte b s = badCommand s := by
  simp only [serviceCommandBytes, List.mem_cons, List.not_mem_nil, or_false, not_or] at unknown
  obtain ⟨a7, x41, x42, x43, x44, x45, x46, x47, x48⟩ := unknown
  simp only [commandByte, a7, x41, x42, x43, x44, x45, x46, x47, x48, if_false]

section
variable {dt : Nat} {start s : State} (arrives : start.arrive dt = s)
include arrives

/-! ### Each command in an open session -/

section
variable (opened : s.svl.session = .opened) (idle : s.svl.receiving = []) (heeding : s.svl.skipping = false)
  (awake : since s.nowMs s.svl.lastByte < 10000)
include opened idle heeding awake

theorem exec_readFactory_of_open : exec (.readFactory dt) start = .next (readFactory s.heard) := by
  subst arrives
  exact congrArg _ (linkByte_of_open 0x41 opened idle heeding awake)

theorem exec_verifyPage_of_open : exec (.verifyPage dt) start = .next (verifyPage s.heard) := by
  subst arrives
  exact congrArg _ (linkByte_of_open 0x45 opened idle heeding awake)

theorem exec_programPage_of_open : exec (.programPage dt) start = .next (programPage s.heard) := by
  subst arrives
  exact congrArg _ (linkByte_of_open 0x44 opened idle heeding awake)

theorem exec_eraseStore_of_open : exec (.eraseStore dt) start = .next (eraseStore s.heard) := by
  subst arrives
  exact congrArg _ (linkByte_of_open 0x46 opened idle heeding awake)

theorem exec_sealStore_of_open : exec (.sealStore dt) start = .next (sealStore s.heard) := by
  subst arrives
  exact congrArg _ (linkByte_of_open 0x47 opened idle heeding awake)

theorem exec_restart_of_open : exec (.restart dt) start = .next (restartPart s.heard) := by
  subst arrives
  exact congrArg _ (linkByte_of_open 0x48 opened idle heeding awake)

theorem exec_unknownCommandByte_of_open {b : Byte} (unknown : b ∉ serviceCommandBytes) :
    exec (.unknownCommandByte dt b) start = .next (badCommand s.heard) := by
  subst arrives
  have heard := linkByte_of_open b opened idle heeding awake
  rw [commandByte_of_unknown unknown] at heard
  exact congrArg _ heard

theorem exec_loadBuffer_of_open (page : Byte) {content : List Byte} (whole : content.length = 64) :
    exec (.loadBuffer dt (page :: content)) start = .next (loadBuffer page content s.heard) := by
  subst arrives
  exact congrArg _ (linkBytes_loadBuffer page content whole opened idle heeding awake)

/-- The one argument of READ_PAGE comes at the moment of its command byte. -/
theorem exec_readPage_of_open (page : Byte) : exec (.readPage dt [page]) start = .next (readPage page s.heard) := by
  subst arrives
  have first : linkByte (start.arrive dt) 0x42 = keepReceiving [0x42] (start.arrive dt).heard :=
    linkByte_of_open 0x42 opened idle heeding awake
  have second : linkByte (keepReceiving [0x42] (start.arrive dt).heard) page =
      openByte page (keepReceiving [0x42] (start.arrive dt).heard) := linkByte_at_once page opened rfl
  have done : keepReceiving [] (keepReceiving [0x42] (start.arrive dt).heard) = (start.arrive dt).heard := by
    simp only [keepReceiving, State.withSvl_svl, State.withSvl_withSvl]
    rw [← idle]
    rfl
  have heeding' : (keepReceiving [0x42] (start.arrive dt).heard).svl.skipping = false := heeding
  have whole : linkBytes [0x42, page] (start.arrive dt) = readPage page (start.arrive dt).heard := by
    calc linkBytes [0x42, page] (start.arrive dt)
        = linkByte (linkByte (start.arrive dt) 0x42) page := rfl
      _ = openByte page (keepReceiving [0x42] (start.arrive dt).heard) := by rw [first, second]
      _ = readPage page (keepReceiving [] (keepReceiving [0x42] (start.arrive dt).heard)) := by
          rw [openByte, if_neg (by rw [heeding']; decide)]
          rfl
      _ = readPage page (start.arrive dt).heard := by rw [done]
  exact congrArg _ whole

end

end

/-! ### Checks 2 and 3 of a programming command (R179) -/

section
variable {s : State}

theorem programmingRefusal_of_closed (closed : s.presentIsolated = false) : programmingRefusal s = some 2 := if_pos closed

theorem programmingRefusal_of_writing (isolated : s.presentIsolated = true) (writing : s.nvs.write ≠ none) :
    programmingRefusal s = some 3 := by
  rw [programmingRefusal, if_neg (by rw [isolated]; decide), if_pos (Option.isSome_iff_ne_none.2 writing)]
  rfl

theorem programmingRefusal_of_idle (isolated : s.presentIsolated = true) (idle : s.nvs.write = none) : programmingRefusal s = none := by
  rw [programmingRefusal, if_neg (by rw [isolated]; decide), idle]
  rfl

/-- A command that is refused answers with the status of the check. -/
theorem programming_of_refused {status : Byte} (refused : programmingRefusal s = some status) :
    programPage s = sendAnswer [status] s ∧ eraseStore s = sendAnswer [status] s ∧ sealStore s = sendAnswer [status] s ∧
      restartPart s = sendAnswer [status] s := by
  simp only [programPage, eraseStore, sealStore, restartPart, refused, and_self]

theorem loadBuffer_of_refused {status : Byte} {page : Byte} {content : List Byte} (low : page.toNat ≤ 3)
    (refused : programmingRefusal s = some status) : loadBuffer page content s = sendAnswer [status] s := by
  simp only [loadBuffer, refused]
  exact if_neg (Nat.not_lt.2 low)

end

end Sys2Proof.Machine

namespace Sys2Proof.Proofs

open Sys2Proof Sys2Proof.Machine

/-- Settles O51: the timing of an answer, and then command by command. -/
theorem serviceReadsAndLoadBuffer : Obligations.ServiceReadsAndLoadBuffer := by
  refine ⟨fun bytes u => rfl, fun now bytes v => ?_, fun dt start => ?_⟩
  · have time : linkTime bytes.length = (bytes.length * 10 * 1000000 + 19199) / 19200 := by
      unfold linkTime
      omega
    dsimp only
    rw [← time]
    rfl
  · dsimp only
    generalize arrives : start.arrive dt = s
    intro opened idle heeding awake
    refine ⟨exec_readFactory_of_open arrives opened idle heeding awake, fun page => ?_, ?_, fun page content whole => ?_⟩
    · rw [exec_readPage_of_open arrives opened idle heeding awake, readPage]
      split_ifs <;> rfl
    · rw [exec_verifyPage_of_open arrives opened idle heeding awake, verifyPage]
      have writing : s.heard.nvs.serviceWriting = s.nvs.write.any fun w => decide (w.kind ≠ .lockoutPage) := by
        change s.nvs.serviceWriting = _
        unfold Nvs.serviceWriting
        cases s.nvs.write <;> rfl
      rw [writing]
      split_ifs <;> rfl
    · rw [exec_loadBuffer_of_open arrives opened idle heeding awake page whole]
      refine ⟨fun high => ?_, fun low closed => ?_, fun low isolated writing => ?_, fun low isolated still => ?_⟩
      · rw [loadBuffer, if_pos high]
        rfl
      · exact congrArg _ (loadBuffer_of_refused low (programmingRefusal_of_closed (s := s.heard) closed))
      · exact congrArg _ (loadBuffer_of_refused low (programmingRefusal_of_writing (s := s.heard) isolated writing))
      · have free := programmingRefusal_of_idle (s := s.heard) isolated still
        simp only [loadBuffer, free]
        rw [if_neg (Nat.not_lt.2 low), pageBytes_of_length whole]
        rfl

/-- Settles O52: the two checks that all four share, and then each command's own. -/
theorem programmingCommandsBeginTheirWrites : Obligations.ProgrammingCommandsBeginTheirWrites := by
  intro dt start
  dsimp only
  generalize arrives : start.arrive dt = s
  intro opened idle heeding awake
  have program := exec_programPage_of_open arrives opened idle heeding awake
  have erase := exec_eraseStore_of_open arrives opened idle heeding awake
  have sealing := exec_sealStore_of_open arrives opened idle heeding awake
  have restart := exec_restart_of_open arrives opened idle heeding awake
  refine ⟨fun command listed => ?_, fun isolated still => ?_⟩
  · have refused {status : Byte} (check : programmingRefusal s.heard = some status) :
        exec command start = .next (sendAnswer [status] s.heard) := by
      obtain ⟨program', erase', seal', restart'⟩ := programming_of_refused check
      simp only [List.mem_cons, List.not_mem_nil, or_false] at listed
      rcases listed with rfl | rfl | rfl | rfl
      · rw [program, program']
      · rw [erase, erase']
      · rw [sealing, seal']
      · rw [restart, restart']
    exact ⟨fun closed => refused (programmingRefusal_of_closed (s := s.heard) closed),
      fun isolated writing => refused (programmingRefusal_of_writing (s := s.heard) isolated writing)⟩
  · have free := programmingRefusal_of_idle (s := s.heard) isolated still
    rw [program, erase, sealing, restart]
    simp only [programPage, eraseStore, sealStore, restartPart, free]
    refine ⟨fun high => congrArg _ (if_pos high), fun low sealed => ?_, fun low unsealed => ?_, rfl, fun sealed => congrArg _ (if_pos sealed),
      fun unsealed bad => ?_, fun unsealed good => ?_, fun none' => ?_, fun first some' => ?_⟩
    · rw [if_neg (by exact Nat.not_le.2 low)]
      exact congrArg _ (if_pos sealed)
    · rw [if_neg (by exact Nat.not_le.2 low)]
      exact congrArg _ (if_neg (by change ¬ s.nvs.sealSet = true; rw [unsealed]; decide))
    · rw [if_neg (by change ¬ s.nvs.sealSet = true; rw [unsealed]; decide)]
      exact congrArg _ (if_pos bad)
    · rw [if_neg (by change ¬ s.nvs.sealSet = true; rw [unsealed]; decide)]
      exact congrArg _ (if_neg (not_not.2 good))
    · have same : s.heard.svl.restart = none := none'
      rw [same]
      rfl
    · have same : s.heard.svl.restart = some first := some'
      rw [same]
      rfl

end Sys2Proof.Proofs
end

section
/-! Proofs: the session of the service link (R177). -/

namespace Sys2Proof.Machine

/-! ### ENTER -/

/-- The part once ENTER has opened a session, its echo on the way. -/
def State.entered (s : State) : State := sendAnswer [0x5C] (s.heard.withSvl { s.heard.svl with session := .opened })

theorem enterAnswer_entered (s : State) : enterAnswer s.entered = enterAnswer s := rfl

/-- The four bytes of ENTER, of which the last three come at the moment of the first. -/
theorem linkBytes_enter_of_closed {s : State} (x y : Byte) (closed : s.svl.session = .none) (idle : s.svl.receiving = [])
    (heeding : s.svl.skipping = false) : linkBytes [0xA7, 0x5C, x, y] s = sendAnswer (enterAnswer s.entered) s.entered := by
  have first : linkByte s 0xA7 = toSession .entry1 s.heard := by
    have none' : s.heard.svl.session = .none := closed
    rw [linkByte_of_closed 0xA7 closed idle heeding, sessionByte, none']
    rfl
  have second : linkByte (toSession .entry1 s.heard) 0x5C = sendAnswer [0x5C] (toSession .entry2 s.heard) := by
    rw [linkByte_of_now _ rfl]
    rfl
  have third : linkByte (sendAnswer [0x5C] (toSession .entry2 s.heard)) x = sendAnswer [0x5C] (toSession .entry3 s.heard) := by
    rw [linkByte_of_now _ rfl]
    rfl
  have fourth : linkByte (sendAnswer [0x5C] (toSession .entry3 s.heard)) y = sendAnswer (enterAnswer s.entered) s.entered := by
    rw [linkByte_of_now _ rfl]
    rfl
  calc linkBytes [0xA7, 0x5C, x, y] s
      = linkByte (linkByte (linkByte (linkByte s 0xA7) 0x5C) x) y := rfl
    _ = sendAnswer (enterAnswer s.entered) s.entered := by rw [first, second, third, fourth]

/-- In OPEN the four bytes are received as a command, and answered in the same words. -/
theorem linkBytes_enter_of_open {s : State} (x y : Byte) (opened : s.svl.session = .opened) (idle : s.svl.receiving = [])
    (heeding : s.svl.skipping = false) (awake : since s.nowMs s.svl.lastByte < 10000) :
    linkBytes [0xA7, 0x5C, x, y] s = sendAnswer (enterAnswer s.entered) s.entered := by
  have passes (l : List Byte) : ¬ (keepReceiving l s.heard).svl.skipping = true := by
    change ¬ s.svl.skipping = true
    rw [heeding]
    decide
  have passes' (l : List Byte) : ¬ (sendAnswer [0x5C] (keepReceiving l s.heard)).svl.skipping = true := passes l
  have first : linkByte s 0xA7 = keepReceiving [0xA7] s.heard := linkByte_of_open 0xA7 opened idle heeding awake
  have second : linkByte (keepReceiving [0xA7] s.heard) 0x5C = sendAnswer [0x5C] (keepReceiving [0xA7, 0x5C] s.heard) := by
    rw [linkByte_at_once (s := keepReceiving [0xA7] s.heard) _ opened rfl, openByte, if_neg (passes _)]
    rfl
  have third : linkByte (sendAnswer [0x5C] (keepReceiving [0xA7, 0x5C] s.heard)) x =
      sendAnswer [0x5C] (keepReceiving [0xA7, 0x5C, x] s.heard) := by
    rw [linkByte_at_once (s := sendAnswer [0x5C] (keepReceiving [0xA7, 0x5C] s.heard)) _ opened rfl, openByte,
      if_neg (passes' _)]
    rfl
  have again : sendAnswer [0x5C] (keepReceiving [] s.heard) = s.entered := by
    rw [State.entered, keepReceiving, ← opened, ← idle]
    rfl
  have fourth : linkByte (sendAnswer [0x5C] (keepReceiving [0xA7, 0x5C, x] s.heard)) y =
      sendAnswer (enterAnswer s.entered) s.entered := by
    rw [linkByte_at_once (s := sendAnswer [0x5C] (keepReceiving [0xA7, 0x5C, x] s.heard)) _ opened rfl, openByte,
      if_neg (passes' _), ← again]
    rfl
  calc linkBytes [0xA7, 0x5C, x, y] s
      = linkByte (linkByte (linkByte (linkByte s 0xA7) 0x5C) x) y := rfl
    _ = sendAnswer (enterAnswer s.entered) s.entered := by rw [first, second, third, fourth]

/-! ### Silences and stop errors -/

/-- What a stop error makes of the session it finds. -/
def stopErrorTaken (s : State) : Session → State
  | .none => s.heard
  | .entry1 => toSession .none s.heard
  | .entry2 => toSession .none s.heard
  | .entry3 => toSession .none s.heard
  | .opened => keepReceiving [] s.heard

section
variable {dt : Nat} {start s : State} (arrives : start.arrive dt = s)
include arrives

theorem exec_commandTimeout_of_silent (opened : s.svl.session = .opened) (silent : 100 ≤ since s.nowMs s.svl.lastByte) :
    exec (.commandTimeout dt) start = .next (s.withSvl s.svl.dropCommand) := by
  subst arrives
  dsimp only [exec, execCommandTimeout]
  rw [if_pos ⟨opened, decide_eq_true silent⟩]

theorem exec_sessionTimeout_of_silent (running : s.svl.session ≠ .none) (silent : 10000 ≤ since s.nowMs s.svl.lastByte) :
    exec (.sessionTimeout dt) start = .next (endSession s) := by
  subst arrives
  dsimp only [exec, execSessionTimeout]
  rw [if_pos]
  rw [sessionExpired, Bool.and_eq_true]
  exact ⟨decide_eq_true running, decide_eq_true silent⟩

/-- A stop error on a sounding link, by the session. -/
theorem exec_serviceStopError_of_sounding (sounding : since s.nowMs s.svl.lastByte < 100) :
    exec (.serviceStopError dt) start = .next (stopErrorTaken s s.svl.session) := by
  subst arrives
  refine congrArg Host.Outcome.next ?_
  unfold linkStopError
  dsimp only
  rw [settleSilence_of_sounding sounding]
  cases session : (start.arrive dt).svl.session <;> simp only [State.withSvl_svl, session, stopErrorTaken, State.heard]

end

end Sys2Proof.Machine

namespace Sys2Proof.Proofs

open Sys2Proof Sys2Proof.Machine

/-- Settles O53. -/
theorem sessionOpensAndEnds : Obligations.SessionOpensAndEnds := by
  intro dt start
  dsimp only
  generalize arrives : start.arrive dt = s
  refine ⟨fun x y idle heeding session => ?_, fun b unknown opened idle heeding awake => ?_, fun opened silent => ?_,
    fun sounding => ⟨fun entering => ?_, fun opened => ?_, fun closed => ?_⟩, fun running silent => ?_⟩
  · subst arrives
    refine congrArg Host.Outcome.next ?_
    rcases session with closed | ⟨opened, awake⟩
    · exact linkBytes_enter_of_closed x y closed idle heeding
    · exact linkBytes_enter_of_open x y opened idle heeding awake
  · exact exec_unknownCommandByte_of_open arrives opened idle heeding awake unknown
  · exact exec_commandTimeout_of_silent arrives opened silent
  · have taken : stopErrorTaken s s.svl.session = toSession .none s.heard := by
      rcases entering with entering | entering | entering <;> rw [entering, stopErrorTaken]
    exact (exec_serviceStopError_of_sounding arrives sounding).trans (congrArg _ taken)
  · have taken : stopErrorTaken s s.svl.session = keepReceiving [] s.heard := by rw [opened, stopErrorTaken]
    exact (exec_serviceStopError_of_sounding arrives sounding).trans (congrArg _ taken)
  · have taken : stopErrorTaken s s.svl.session = s.heard := by rw [closed, stopErrorTaken]
    exact (exec_serviceStopError_of_sounding arrives sounding).trans (congrArg _ taken)
  · refine ⟨_, exec_sessionTimeout_of_silent arrives running silent, rfl, rfl, rfl, rfl, rfl, rfl, rfl, fun w writing => ?_,
      fun idle => ?_, rfl⟩
    · simp [endSession, writing]
    · simp [endSession, idle]

end Sys2Proof.Proofs
end

section
/-! Proofs: the seventy fields of the commissioning record (R175, R184). -/

namespace Sys2Proof.Machine

theorem firstFailure_zero_or_le (n : Nat) (l : List Bool) : firstFailure n l = 0 ∨ n ≤ firstFailure n l := by
  induction l generalizing n with
  | nil => exact .inl rfl
  | cons ok l ih =>
    cases ok with
    | false => exact .inr (le_refl n)
    | true => exact (ih (n + 1)).imp_right (by intro later; rw [firstFailure, if_pos rfl]; omega)

/-- A failing check is found by its place: it fails and every check before it passes. -/
theorem firstFailure_eq_iff {n : Nat} {l : List Bool} {k : Nat} (h : 0 < n) :
    firstFailure n l = n + k ↔ l.getD k true = false ∧ ∀ j, j < k → l.getD j true = true := by
  induction l generalizing n k with
  | nil =>
    rw [firstFailure]
    exact ⟨fun zero => absurd zero (by omega), fun failing => absurd failing.1 (by simp)⟩
  | cons ok l ih =>
    cases ok with
    | false =>
      rw [firstFailure, if_neg Bool.false_ne_true]
      constructor
      · intro same
        obtain rfl : k = 0 := by omega
        exact ⟨rfl, fun j before => absurd before (Nat.not_lt_zero j)⟩
      · rintro ⟨-, before⟩
        cases k with
        | zero => rfl
        | succ k => exact absurd (before 0 k.succ_pos) (by simp)
    | true =>
      rw [firstFailure, if_pos rfl]
      cases k with
      | zero =>
        have later := firstFailure_zero_or_le (n + 1) l
        exact ⟨fun same => by omega, fun failing => absurd failing.1 (by simp)⟩
      | succ k =>
        rw [show n + (k + 1) = n + 1 + k by omega, ih n.succ_pos, List.getD_cons_succ]
        refine and_congr_right fun _ => ⟨fun before j inside => ?_, fun before j inside => ?_⟩
        · cases j with
          | zero => rfl
          | succ j => exact before j (by omega)
        · exact before (j + 1) (by omega)

/-- The check of a field, by its number. -/
def fieldPasses (m : Memory) (field : Nat) : Bool := (recordChecks m).getD (field - 1) true

theorem length_stringFieldChecks (m : Memory) (i : StringIdx) : (stringFieldChecks m i).length = 4 := rfl

theorem length_recordChecks (m : Memory) : (recordChecks m).length = 70 := by
  rw [recordChecks, List.length_append, length_flatten_pieces (length_stringFieldChecks m)]
  rfl

theorem fieldPasses_of_station {m : Memory} {field : Nat} (from' : 1 ≤ field) (to' : field ≤ 22) :
    fieldPasses m field = (stationFieldChecks m).getD (field - 1) true := by
  have inside : field - 1 < (stationFieldChecks m).length := by show field - 1 < 22; omega
  rw [fieldPasses, recordChecks, List.getD_append _ _ _ _ inside]

theorem fieldPasses_of_string {m : Memory} {i : StringIdx} {j : Nat} (inside : j < 4) :
    fieldPasses m (23 + 4 * i.val + j) = (stringFieldChecks m i).getD j true := by
  have past : (stationFieldChecks m).length ≤ 23 + 4 * i.val + j - 1 := by show 22 ≤ _; omega
  rw [fieldPasses, recordChecks, List.getD_append_right _ _ _ _ past,
    show 23 + 4 * i.val + j - 1 - (stationFieldChecks m).length = 4 * i.val + j by show _ - 22 = _; omega]
  exact getD_of_slice (flatten_piece (length_stringFieldChecks m) (getElem?_all i)) inside true

theorem offendingField_eq_iff {m : Memory} {field : Nat} (from' : 1 ≤ field) :
    offendingField m = field ↔ fieldPasses m field = false ∧ ∀ k, 1 ≤ k → k < field → fieldPasses m k = true := by
  obtain ⟨place, rfl⟩ : ∃ place, field = 1 + place := ⟨field - 1, by omega⟩
  rw [offendingField, firstFailure_eq_iff Nat.one_pos, fieldPasses, show 1 + place - 1 = place by omega]
  refine and_congr_right fun _ => ⟨fun before k positive inside => before (k - 1) (by omega), fun before j inside => ?_⟩
  have passes := before (1 + j) (by omega) (by omega)
  rwa [fieldPasses, show 1 + j - 1 = j by omega] at passes

theorem offendingField_eq_zero_iff {m : Memory} :
    offendingField m = 0 ↔ ∀ field, 1 ≤ field → field ≤ 70 → fieldPasses m field = true := by
  rw [offendingField, firstFailure_eq_zero_iff Nat.one_pos, List.forall_mem_iff_getElem]
  constructor
  · intro all field from' to'
    have inside : field - 1 < (recordChecks m).length := by rw [length_recordChecks]; omega
    rw [fieldPasses, List.getD_eq_getElem _ _ inside]
    exact all (field - 1) inside
  · intro all k inside
    have passes := all (k + 1) (by omega) (by rw [length_recordChecks] at inside; omega)
    rwa [fieldPasses, Nat.add_sub_cancel, List.getD_eq_getElem _ _ inside] at passes

/-! ### The bytes the record's checks read -/

theorem recordByte_congr {m n : Memory} {k : Nat} (same : Memory.read m k = Memory.read n k) : recordByte m k = recordByte n k :=
  congrArg BitVec.toNat same

theorem recordWord_congr {m n : Memory} {k : Nat} (same : Memory.read m k = Memory.read n k)
    (next' : Memory.read m (k + 1) = Memory.read n (k + 1)) : recordWord m k = recordWord n k :=
  congrArg₂ word16 same next'

section
variable {m n : Memory}

theorem stationFieldChecks_congr (same : ∀ a, a < 32 → Memory.read m a = Memory.read n a) :
    stationFieldChecks m = stationFieldChecks n := by
  have byte : ∀ k, k < 32 → recordByte m k = recordByte n k := fun k inside => recordByte_congr (same k inside)
  have word : ∀ k, k < 31 → recordWord m k = recordWord n k := fun k inside =>
    recordWord_congr (same k (by omega)) (same (k + 1) (by omega))
  simp only [stationFieldChecks, byte, word, Nat.reduceLT]

theorem stringFieldChecks_congr {i : StringIdx}
    (same : ∀ a, 32 + 5 * i.val ≤ a → a < 37 + 5 * i.val → Memory.read m a = Memory.read n a) :
    stringFieldChecks m i = stringFieldChecks n i := by
  have byte : ∀ k, k < 5 → recordByte m (32 + 5 * i.val + k) = recordByte n (32 + 5 * i.val + k) := fun k inside =>
    recordByte_congr (same _ (by omega) (by omega))
  have word : recordWord m (32 + 5 * i.val + 2) = recordWord n (32 + 5 * i.val + 2) :=
    recordWord_congr (same _ (by omega) (by omega)) (same _ (by omega) (by omega))
  simp only [stringFieldChecks, byte 1 (by omega), byte 4 (by omega), word,
    show recordByte m (32 + 5 * i.val) = _ from byte 0 (by omega), Nat.add_zero]

theorem stringSettingsOf_congr {i : StringIdx}
    (same : ∀ a, 32 + 5 * i.val ≤ a → a < 37 + 5 * i.val → Memory.read m a = Memory.read n a) :
    stringSettingsOf m i = stringSettingsOf n i := by
  have byte : ∀ k, k < 5 → recordByte m (32 + 5 * i.val + k) = recordByte n (32 + 5 * i.val + k) := fun k inside =>
    recordByte_congr (same _ (by omega) (by omega))
  have word : recordWord m (32 + 5 * i.val + 2) = recordWord n (32 + 5 * i.val + 2) :=
    recordWord_congr (same _ (by omega) (by omega)) (same _ (by omega) (by omega))
  simp only [stringSettingsOf, byte 1 (by omega), byte 4 (by omega), word,
    show recordByte m (32 + 5 * i.val) = _ from byte 0 (by omega), Nat.add_zero]

theorem recordChecks_congr (same : ∀ a, a < 92 → Memory.read m a = Memory.read n a) : recordChecks m = recordChecks n := by
  rw [recordChecks, recordChecks, stationFieldChecks_congr fun a inside => same a (by omega)]
  refine congrArg (fun checks => stationFieldChecks n ++ (StringIdx.all.map checks).flatten) (funext fun i => ?_)
  exact stringFieldChecks_congr fun a _ inside => same a (by omega)

theorem offendingField_congr (same : ∀ a, a < 92 → Memory.read m a = Memory.read n a) : offendingField m = offendingField n :=
  congrArg (firstFailure 1) (recordChecks_congr same)

theorem settingsOf_congr (same : ∀ a, a < 92 → Memory.read m a = Memory.read n a) : settingsOf m = settingsOf n := by
  have byte : ∀ k, k < 32 → recordByte m k = recordByte n k := fun k inside => recordByte_congr (same k (by omega))
  have word : ∀ k, k < 31 → recordWord m k = recordWord n k := fun k inside =>
    recordWord_congr (same k (by omega)) (same (k + 1) (by omega))
  have strings : stringSettingsOf m = stringSettingsOf n := funext fun i =>
    stringSettingsOf_congr fun a _ inside => same a (by omega)
  simp only [settingsOf, byte, word, strings, Nat.reduceLT]

end

theorem strings_settingsOf (m : Memory) (i : StringIdx) : (settingsOf m).strings[i] = stringSettingsOf m i := by
  show (Vector.ofFn (stringSettingsOf m))[i.val] = _
  rw [Vector.getElem_ofFn]

/-- The settings of a string, by the places of its bytes (R184). -/
theorem stringSettingsOf_eq (m : Memory) (i : StringIdx) :
    (stringSettingsOf m i).present = decide (recordByte m (32 + 5 * i.val) = 1) ∧
      (stringSettingsOf m i).group = recordByte m (33 + 5 * i.val) ∧ (stringSettingsOf m i).weight = recordWord m (34 + 5 * i.val) ∧
        ((stringSettingsOf m i).action = .reportOnly ↔ recordByte m (36 + 5 * i.val) = 1) := by
  have one : 32 + 5 * i.val + 1 = 33 + 5 * i.val := by omega
  have two : 32 + 5 * i.val + 2 = 34 + 5 * i.val := by omega
  have four : 32 + 5 * i.val + 4 = 36 + 5 * i.val := by omega
  simp only [stringSettingsOf, one, two, four]
  refine ⟨trivial, trivial, trivial, ?_⟩
  split_ifs with report
  · exact iff_of_true rfl report
  · exact iff_of_false (by rintro ⟨⟩) report

/-- The checks of a string's fields in the statement's form: a string that is not present passes the last three. -/
theorem stringFieldChecks_eq (m : Memory) (i : StringIdx) :
    let absent := decide (recordByte m (32 + 5 * i.val) ≠ 1)
    stringFieldChecks m i =
      [decide (recordByte m (32 + 5 * i.val) = 0 ∨ recordByte m (32 + 5 * i.val) = 1),
        absent || inRange 0 7 (recordByte m (33 + 5 * i.val)) || decide (recordByte m (33 + 5 * i.val) = 15),
        absent || inRange 500 1500 (recordWord m (34 + 5 * i.val)), absent || inRange 0 1 (recordByte m (36 + 5 * i.val))] := by
  have one : 32 + 5 * i.val + 1 = 33 + 5 * i.val := by omega
  have two : 32 + 5 * i.val + 2 = 34 + 5 * i.val := by omega
  have four : 32 + 5 * i.val + 4 = 36 + 5 * i.val := by omega
  simp only [stringFieldChecks, one, two, four]
  generalize recordByte m (32 + 5 * i.val) = present
  have flag : decide (present ≤ 1) = decide (present = 0 ∨ present = 1) := decide_eq_decide.2 (by omega)
  rw [flag]
  by_cases here : present = 1
  · simp [here, inRange]
  · simp [here]

end Sys2Proof.Machine

namespace Sys2Proof.Proofs

open Sys2Proof Sys2Proof.Machine

/-- Settles O7: the first failure of the list of seventy checks is the place of the first check that fails; the checks and the settings
read bytes 0 to 91 only. -/
theorem recordFieldsAreCheckedInOrder : Obligations.RecordFieldsAreCheckedInOrder := by
  refine ⟨fun m => ?_, fun m n same => ⟨offendingField_congr same, settingsOf_congr same⟩⟩
  intro b w within station string passes
  have agree : ∀ field, 1 ≤ field → field ≤ 70 → passes field = fieldPasses m field := by
    intro field from' to'
    by_cases low : field ≤ 22
    · rw [fieldPasses_of_station from' low]
      exact if_pos low
    · obtain ⟨i, j, inside, rfl⟩ : ∃ (i : StringIdx) (j : Nat), j < 4 ∧ field = 23 + 4 * i.val + j :=
        ⟨⟨(field - 23) / 4, by omega⟩, (field - 23) % 4, by omega, by show _ = 23 + 4 * ((field - 23) / 4) + _; omega⟩
      rw [fieldPasses_of_string inside]
      have place : (23 + 4 * i.val + j - 23) / 4 + 1 = i.val + 1 := by omega
      have rank : (23 + 4 * i.val + j - 23) % 4 = j := by omega
      show (if _ then _ else _) = _
      rw [if_neg low, place, rank]
      refine congrArg (fun checks => List.getD checks j true) ?_
      exact (stringFieldChecks_eq m i).symm
  refine ⟨?_, ?_, ?_⟩
  · rw [offendingField_eq_zero_iff]
    exact forall_congr' fun field => forall_congr' fun from' => forall_congr' fun to' => by rw [agree field from' to']
  · intro field from' to'
    rw [offendingField_eq_iff from', agree field from' to']
    refine and_congr_right fun _ => forall_congr' fun k => forall_congr' fun first => forall_congr' fun before => ?_
    rw [agree k first (by omega)]
  · refine ⟨rfl, rfl, rfl, rfl, rfl, rfl, rfl, rfl, rfl, rfl, rfl, rfl, rfl, rfl, rfl, rfl, rfl, rfl, fun i => ?_⟩
    rw [strings_settingsOf]
    exact stringSettingsOf_eq m i

end Sys2Proof.Proofs
end

section
/-! Proofs: what the three resets leave (R149, R174, R175). -/

namespace Sys2Proof.Machine

/-! ### The three resets -/

/-- The command resets the part: a POWER_ON, a SUPPLY_DIP, or a SERVICE_RESTART that is due. -/
def ResetsPart (start : State) (level : Bool) (c : Instr) (kind : ResetKind) : Prop :=
  (c = .powerOn level ∧ kind = .powerOn) ∨ (c = .supplyDip level ∧ kind = .supplyDip) ∨
    (kind = .serviceRestart ∧ ∃ dt sent, c = .serviceRestart dt level ∧ start.settled.svl.restart = some sent ∧
      sent ≤ start.settled.timeUs + dt ∧ start.settled.nvs.write = none)

/-- A reset finds the store unit as it is once what was on its way is taken. -/
theorem exec_of_resetsPart {start : State} {level : Bool} {c : Instr} {kind : ResetKind} (resets : ResetsPart start level c kind) :
    ∃ log s, s.nvs = start.settled.nvs ∧ exec c start = .next (resetPart kind level log s) := by
  rcases resets with ⟨rfl, rfl⟩ | ⟨rfl, rfl⟩ | ⟨rfl, dt, sent, rfl, taken, passed, idle⟩
  · exact ⟨_, _, rfl, exec_powerOn level start⟩
  · exact ⟨_, _, rfl, exec_supplyDip level start⟩
  · exact ⟨_, _, rfl, exec_serviceRestart_of_due level (restartDue_iff.2 ⟨sent, taken, passed, idle⟩)⟩

theorem exists_kind {start : State} {level : Bool} {c : Instr}
    (resets : c = .powerOn level ∨ c = .supplyDip level ∨ ∃ dt sent, c = .serviceRestart dt level ∧
      start.settled.svl.restart = some sent ∧ sent ≤ start.settled.timeUs + dt ∧ start.settled.nvs.write = none) :
    ∃ kind, ResetsPart start level c kind := by
  rcases resets with power | dip | due
  · exact ⟨_, .inl ⟨power, rfl⟩⟩
  · exact ⟨_, .inr (.inl ⟨dip, rfl⟩)⟩
  · exact ⟨_, .inr (.inr ⟨rfl, due⟩)⟩

/-! ### The start-up holds of a lost lockout page (R149, R151) -/

section
variable {s : State}

/-- The state whose masks are compared: the start-up holds set, the page marked lost, LOCKOUT not yet added. -/
def heldOfLost (s : State) : State :=
  let held := forPresent (startHold s.nvs.store s.hld.shutdown s.nowMs) s
  held.withHld { held.hld with pageLost := true }

theorem startHolds_of_lost (lost : lockoutPageGood s.nvs.store = false) :
    startHolds s = withMaskChange (forPresent fun _ h => h.addLockout) (heldOfLost s) := by
  unfold startHolds
  exact if_neg (by simp [lost])

theorem startHolds_of_pageGood (good : lockoutPageGood s.nvs.store = true) :
    startHolds s = forPresent (startHold s.nvs.store s.hld.shutdown s.nowMs) s := by
  unfold startHolds
  exact if_pos good

theorem hold_heldOfLost (i : StringIdx) :
    (heldOfLost s).hold i = if s.present i = true then startHold s.nvs.store s.hld.shutdown s.nowMs i (s.hold i) else s.hold i := by
  simp [heldOfLost, forPresent, State.hold, State.withHld]

theorem masksFollow_startHolds (lost : lockoutPageGood s.nvs.store = false) : MasksFollow (heldOfLost s) (startHolds s) := by
  rw [startHolds_of_lost lost]
  exact masksFollow_withMaskChange (by simp only [forPresent_frame]) (by simp only [forPresent_frame])

/-- With a string present a lost page makes a lockout page write begin. -/
theorem nvs_startHolds_of_lost (lost : lockoutPageGood s.nvs.store = false) (idle : s.nvs.write = none)
    (some' : ∃ i, s.present i = true) :
    (startHolds s).nvs = { s.nvs with
      store := Memory.erasePage s.nvs.store 2
      write := some ⟨.lockoutPage, 2, lockoutPageBytes (startHolds s).lockoutMask (startHolds s).manualMask, s.nowMs + ms 6,
        false⟩ } := by
  obtain ⟨i, here⟩ := some'
  have added : (startHolds s).lockoutMask.testBit i.val = true := by
    rw [State.lockoutMask, testBit_maskOf, hold_startHolds_of_lost lost, if_pos here]
    simp [here, Hold.addLockout]
  have before : (heldOfLost s).lockoutMask.testBit i.val = false := by
    rw [State.lockoutMask, testBit_maskOf, hold_heldOfLost, if_pos here]
    simp [startHold, lost]
  have changed : (startHolds s).lockoutMask ≠ (heldOfLost s).lockoutMask := fun same => by simp [same, before] at added
  exact ((masksFollow_startHolds lost).2 (.inl changed)).1 idle

/-- Without a present string the masks stay and so does the store unit. -/
theorem nvs_startHolds_of_absent (absent : ∀ i, s.present i = false) : (startHolds s).nvs = s.nvs := by
  cases lost : lockoutPageGood s.nvs.store with
  | true => rw [startHolds_of_pageGood lost]; rfl
  | false =>
    have none' : ∀ i, (startHolds s).present i = false ∧ (heldOfLost s).present i = false := fun i =>
      ⟨by simp [absent], absent i⟩
    refine (masksFollow_startHolds lost).1 ?_ ?_ <;> simp [State.lockoutMask, State.manualMask, none']

theorem nvs_startHolds_of_pageGood (good : lockoutPageGood s.nvs.store = true) : (startHolds s).nvs = s.nvs := by
  rw [startHolds_of_pageGood good]
  rfl

theorem pageLost_startHolds : (startHolds s).hld.pageLost = (s.hld.pageLost || !lockoutPageGood s.nvs.store) := by
  cases good : lockoutPageGood s.nvs.store
  · rw [startHolds_of_lost good]
    simp [heldOfLost]
  · rw [startHolds_of_pageGood good]
    simp

/-- Whatever the page holds, the start-up holds write nothing of the store unit but the write state and, erasing it, page 2. -/
theorem nvs_startHolds_kept (idle : s.nvs.write = none) :
    ∃ store write, (startHolds s).nvs = { s.nvs with store := store, write := write } ∧
      (store = s.nvs.store ∨ store = Memory.erasePage s.nvs.store 2) := by
  by_cases some' : ∃ i, s.present i = true
  · cases good : lockoutPageGood s.nvs.store
    · exact ⟨_, _, nvs_startHolds_of_lost good idle some', .inr rfl⟩
    · exact ⟨_, _, nvs_startHolds_of_pageGood good, .inl rfl⟩
  · exact ⟨_, _, nvs_startHolds_of_absent (by simpa using some'), .inl rfl⟩

end

/-! ### The store unit after a reset -/

section
variable {kind : ResetKind} {level : Bool} {log : Flg} {s : State}

theorem nvs_latched : (latched kind level log s).nvs = { resetStore kind s.nvs with offending := 0 } := rfl

theorem idle_latched : (latched kind level log s).nvs.write = none := cutOff_write s.nvs

theorem nvs_resetPart_of_offending (bad : offendingField (cutOff s.nvs).store ≠ 0) :
    (resetPart kind level log s).nvs = { resetStore kind s.nvs with offending := offendingField (cutOff s.nvs).store } := by
  rw [resetPart_of_offending bad]
  rfl

/-- A reset empties the buffer and the pending mask change, records its kind and the load's outcome and keeps the seal. Of the store, cut
off, it may erase page 2 alone. -/
theorem nvs_resetPart_kept :
    ∃ store write, (resetPart kind level log s).nvs =
        { resetStore kind s.nvs with offending := offendingField (cutOff s.nvs).store, store := store, write := write } ∧
      (store = (cutOff s.nvs).store ∨ store = Memory.erasePage (cutOff s.nvs).store 2) := by
  by_cases good : offendingField (cutOff s.nvs).store = 0
  · obtain ⟨store, write, same, kept⟩ := nvs_startHolds_kept (s := latched kind level log s) idle_latched
    rw [resetPart_of_good good, same, good]
    exact ⟨store, write, rfl, kept⟩
  · rw [nvs_resetPart_of_offending good]
    exact ⟨_, _, rfl, .inl rfl⟩

theorem nvs_resetPart_of_pageGood (good : offendingField (cutOff s.nvs).store = 0)
    (page : lockoutPageGood (cutOff s.nvs).store = true) :
    (resetPart kind level log s).nvs = { resetStore kind s.nvs with offending := 0 } := by
  rw [resetPart_of_good good, nvs_startHolds_of_pageGood page, nvs_latched]

theorem present_resetPart_of_good (good : offendingField (cutOff s.nvs).store = 0) (i : StringIdx) :
    (resetPart kind level log s).present i = (settingsOf (cutOff s.nvs).store).strings[i].present := by
  rw [State.present, settings_resetPart, if_pos good]

theorem write_resetPart_of_lost (good : offendingField (cutOff s.nvs).store = 0)
    (lost : lockoutPageGood (cutOff s.nvs).store = false) (some' : ∃ i, (resetPart kind level log s).present i = true) :
    let t := resetPart kind level log s
    t.nvs.write = some ⟨.lockoutPage, 2, lockoutPageBytes t.lockoutMask t.manualMask, ms 6, false⟩ := by
  dsimp only
  obtain ⟨i, here⟩ := some'
  rw [present_resetPart_of_good good] at here
  rw [resetPart_of_good good, nvs_startHolds_of_lost (s := latched kind level log s) lost idle_latched ⟨i, here⟩,
    inputs_latched.2.2, zero_add]

theorem pageLost_resetPart_of_good (good : offendingField (cutOff s.nvs).store = 0) :
    (resetPart kind level log s).hld.pageLost = !lockoutPageGood (cutOff s.nvs).store := by
  rw [resetPart_of_good good, pageLost_startHolds]
  rfl

theorem pageLost_resetPart_of_offending (bad : offendingField (cutOff s.nvs).store ≠ 0) :
    (resetPart kind level log s).hld.pageLost = false := by
  rw [resetPart_of_offending bad]
  rfl

theorem mode_resetPart :
    (resetPart kind level log s).mode = if offendingField (cutOff s.nvs).store = 0 then .run else .uncommissioned := by
  have heard : (resetPart kind level log s).abu.silent = false := by simp only [resetPart_frame]; rfl
  rw [State.mode, settings_resetPart, heard]
  by_cases good : offendingField (cutOff s.nvs).store = 0
  · rw [if_pos good, if_pos good]
    rfl
  · rw [if_neg good, if_neg good]

theorem wac_resetPart_kept : ∃ countdown, (resetPart kind level log s).wac = { Wac.reset with countdown := countdown } := by
  rw [wac_resetPart]
  split_ifs
  · exact ⟨_, rfl⟩
  · exact ⟨none, rfl⟩

theorem sfe_resetPart :
    (resetPart kind level log s).sfe = Sfe.reset (trimsOf (cutOff s.nvs).store) (totalTrimOf (cutOff s.nvs).store) := by
  unfold resetPart
  simp only [settingsLoad_frame]
  rfl

end

/-! ### The trims in use (R6) -/

/-- A trim pair of the factory page in use: its values, or the neutral pair where either is out of range. -/
theorem trimAt_cases (m : Memory) (k : Nat) :
    let offset := (Memory.read m (192 + k)).toInt
    let gain := word16 (Memory.read m (192 + k + 1)) (Memory.read m (192 + k + 2))
    (-64 ≤ offset ∧ offset ≤ 63 ∧ 960 ≤ gain ∧ gain ≤ 1088 → trimAt m k = ⟨offset, gain, false⟩) ∧
      (¬ (-64 ≤ offset ∧ offset ≤ 63 ∧ 960 ≤ gain ∧ gain ≤ 1088) → trimAt m k = ⟨0, 1024, true⟩) :=
  ⟨fun inside => if_pos inside, fun outside => if_neg outside⟩

theorem getElem_trimsOf (m : Memory) (i : StringIdx) : (trimsOf m)[i] = trimAt m (3 * i.val) := by
  show (trimsOf m)[i.val] = _
  rw [trimsOf, Vector.getElem_ofFn]

/-! ### The lockout page as the statements spell it (R151) -/

theorem lockoutPageGood_iff {m : Memory} :
    let b := fun k => Memory.read m (128 + k)
    lockoutPageGood m = true ↔
      b 0 = 0x3C ∧ b 1 = 0x27 ∧ [b 6, b 7] = be16 (crc16 [b 0, b 1, b 2, b 3, b 4, b 5]).toNat := by
  unfold lockoutPageGood
  dsimp only
  rw [Bool.and_eq_true, Bool.and_eq_true, decide_eq_true_eq, decide_eq_true_eq, decide_eq_true_eq, and_assoc]

/-- The start-up holds of a present string. -/
theorem loadedHold_fields (m : Memory) (level : Bool) (i : StringIdx) :
    let h := loadedHold m level i
    h.startupUntil = some (ms (5000 + 2000 * i.val)) ∧ h.shutdown = level
      ∧ (h.lockout = true ↔ ¬ lockoutPageGood m = true ∨ (pageLockoutMask m).testBit i.val = true)
      ∧ (h.manual = true ↔ lockoutPageGood m = true ∧ (pageManualMask m).testBit i.val = true)
      ∧ h.retryUntil = none ∧ h.voltageRecheck = none ∧ h.retryCount = 0 ∧ h.suspect = false := by
  dsimp only
  rw [loadedHold]
  cases good : lockoutPageGood m <;>
    simp [startHold, good, Hold.addLockout, Hold.reset, staggerEnd, maskHas]

end Sys2Proof.Machine

namespace Sys2Proof.Proofs

open Sys2Proof Sys2Proof.Machine

/-- Settles O4: the reset gives each block its reset value and the settings load writes none of those named; a SERVICE_RESTART that is
not due lets time pass alone. -/
theorem resetsPutEveryBlockAtItsResetValues : Obligations.ResetsPutEveryBlockAtItsResetValues := by
  refine ⟨fun c start level resets => ?_, fun dt start level waits => ?_⟩
  · rw [← settled_timeUs start] at resets
    obtain ⟨kind, resets⟩ := exists_kind resets
    obtain ⟨log, s, -, run⟩ := exec_of_resetsPart resets
    refine ⟨_, run, ?_⟩
    obtain ⟨store, write, nvs, -⟩ := nvs_resetPart_kept (kind := kind) (level := level) (log := log) (s := s)
    obtain ⟨countdown, wac⟩ := wac_resetPart_kept (kind := kind) (level := level) (log := log) (s := s)
    rw [nvs, wac, sfe_resetPart]
    simp only [resetPart_frame, path_resetPart, adjOf_resetPart]
    simp [Abu.reset, Svl.reset, Acu.reset, Sfe.reset, Wac.reset, Path.reset, AdjRecord.reset, Rfu.reset, Ptb.reset, Tally.zero,
      resetStore, erasedByte]
  · refine exec_serviceRestart_of_not_due level (Bool.eq_false_iff.2 fun due => ?_)
    obtain ⟨sent, taken, passed, idle⟩ := restartDue_iff.1 due
    rcases waits with early | writing
    · have before := early sent taken
      rw [State.elapse_timeUs, settled_timeUs] at passed
      omega
    · exact writing idle

/-- Settles O6: the load reads the store that the reset left; its outcome is that of the first field that fails. -/
theorem settingsLoadDecidesTheMode : Obligations.SettingsLoadDecidesTheMode := by
  intro start level c kind
  dsimp only
  intro resets
  refine ⟨fun idle => by rw [cutOff_of_none idle], ?_⟩
  obtain ⟨log, s, same, run⟩ := exec_of_resetsPart resets
  rw [← same]
  refine ⟨_, run, ?_⟩
  obtain ⟨store, write, nvs, -⟩ := nvs_resetPart_kept (kind := kind) (level := level) (log := log) (s := s)
  refine ⟨by rw [nvs]; rfl, by rw [nvs], by rw [nvs]; simp [resetStore], fun good => ⟨?_, ?_, ?_⟩,
    fun bad => ⟨?_, ?_, ?_, ?_, ?_, ?_, ?_⟩, fun i => ?_, ?_⟩
  · rw [mode_resetPart, if_pos good]
  · rw [settings_resetPart, if_pos good]
  · rw [wac_resetPart, if_pos good]
  · rw [mode_resetPart, if_neg bad]
  · rw [settings_resetPart, if_neg bad]
  · rw [wac_resetPart, if_neg bad]
    rfl
  · intro i
    rw [hold_resetPart_of_offending bad]
    rfl
  · rw [nvs_resetPart_of_offending bad]
    simp [resetStore]
  · rw [nvs_resetPart_of_offending bad]
    simp [resetStore]
  · exact pageLost_resetPart_of_offending bad
  · rw [sfe_resetPart]
    have pair := trimAt_cases (cutOff s.nvs).store (3 * i.val)
    rw [← getElem_trimsOf] at pair
    exact pair
  · rw [sfe_resetPart]
    exact trimAt_cases _ 36

/-- Settles O8: the holds are those of the load, on the page that the reset left. -/
theorem startUpHoldsFollowTheLockoutPage : Obligations.StartUpHoldsFollowTheLockoutPage := by
  intro start level c
  dsimp only
  intro resets good
  obtain ⟨kind, resets⟩ := exists_kind resets
  obtain ⟨log, s, same, run⟩ := exec_of_resetsPart resets
  rw [← same] at good ⊢
  refine ⟨_, run, by simp only [resetPart_frame], by simp only [resetPart_frame], ?_⟩
  have page := lockoutPageGood_iff (m := (cutOff s.nvs).store)
  dsimp only at page
  rw [← page, pageLost_resetPart_of_good good]
  refine ⟨by simp, fun kept => ?_, fun lost some' => write_resetPart_of_lost good (Bool.eq_false_iff.2 lost) some', fun i => ?_⟩
  · rw [nvs_resetPart_of_pageGood good kept]
    simp [resetStore]
  · rw [hold_resetPart_of_good good]
    refine ⟨fun here => ?_, fun absent => if_neg (by rw [absent]; exact Bool.false_ne_true)⟩
    rw [if_pos here]
    exact loadedHold_fields _ level i

end Sys2Proof.Proofs
end

section
/-! Proofs: writes cut off by a reset (R176, R151). -/

namespace Sys2Proof.Machine

/-! ### The record as the checks of the station and of each string -/

/-- The four fields of a string pass (R175). -/
def StringPasses (m : Memory) (i : StringIdx) : Prop :=
  recordByte m (32 + 5 * i.val) ≤ 1 ∧ (recordByte m (32 + 5 * i.val) = 1 →
    (recordByte m (32 + 5 * i.val + 1) ≤ 7 ∨ recordByte m (32 + 5 * i.val + 1) = 15) ∧
      (500 ≤ recordWord m (32 + 5 * i.val + 2) ∧ recordWord m (32 + 5 * i.val + 2) ≤ 1500) ∧
        recordByte m (32 + 5 * i.val + 4) ≤ 1)

theorem stringPasses_iff {m : Memory} {i : StringIdx} : (∀ ok ∈ stringFieldChecks m i, ok = true) ↔ StringPasses m i := by
  simp only [stringFieldChecks, StringPasses, List.forall_mem_cons, decide_eq_true_eq]
  constructor
  · rintro ⟨flag, group, weight, action, -⟩
    exact ⟨flag, fun present => ⟨group present, weight present, action present⟩⟩
  · rintro ⟨flag, rest⟩
    refine ⟨flag, fun present => ?_, fun present => ?_, fun present => ?_, List.forall_mem_nil _⟩ <;>
      obtain ⟨group, weight, action⟩ := rest present
    exacts [group, weight, action]

theorem offendingField_eq_zero_iff_passes {m : Memory} :
    offendingField m = 0 ↔ (∀ ok ∈ stationFieldChecks m, ok = true) ∧ ∀ i, StringPasses m i := by
  simp only [offendingField, firstFailure_eq_zero_iff Nat.one_pos, recordChecks, List.forall_mem_append, ← stringPasses_iff]
  refine and_congr_right fun _ => ?_
  simp only [List.mem_flatten, List.mem_map]
  constructor
  · intro all i ok mem
    exact all ok ⟨_, ⟨i, StringIdx.mem_all i, rfl⟩, mem⟩
  · rintro all ok ⟨_, ⟨i, -, rfl⟩, mem⟩
    exact all i ok mem

theorem stringPasses_congr {m n : Memory} {i : StringIdx}
    (same : ∀ a, 32 + 5 * i.val ≤ a → a < 37 + 5 * i.val → Memory.read m a = Memory.read n a) (passes : StringPasses m i) :
    StringPasses n i := by
  rw [← stringPasses_iff] at passes ⊢
  rwa [← stringFieldChecks_congr same]

/-! ### A page that fails whatever the other page holds (R176) -/

/-- Two stores hold the same bytes on a page. -/
def SamePage (page : Nat) (m n : Memory) : Prop := ∀ a, a / 64 = page → Memory.read m a = Memory.read n a

/-- No record with this page loads. -/
def PageFails (m : Memory) (page : Nat) : Prop := ∀ n, SamePage page n m → offendingField n ≠ 0

theorem PageFails.congr {m n : Memory} {page : Nat} (fails : PageFails m page) (same : SamePage page n m) : PageFails n page :=
  fun other agrees => fails other fun a own => (agrees a own).trans (same a own)

theorem PageFails.offending {m : Memory} {page : Nat} (fails : PageFails m page) : offendingField m ≠ 0 := fails m fun _ _ => rfl

/-- The lenient record in a store that holds nothing else. -/
def lenientStore : Memory := Memory.writeBytes [] 0 lenientRecord

theorem read_lenientStore (a : Nat) : Memory.read lenientStore a = lenientRecord.getD a erasedByte := by
  rw [lenientStore, read_writeBytes _ _ rfl, Nat.zero_add, Nat.sub_zero]
  split_ifs with inside
  · rfl
  · rw [List.getD_eq_default _ _ (by omega)]
    rfl

theorem offendingField_lenientStore : offendingField lenientStore = 0 := by decide +kernel

theorem lenientStore_passes (i : StringIdx) : StringPasses lenientStore i :=
  (offendingField_eq_zero_iff_passes.1 offendingField_lenientStore).2 i

/-- The lenient page 1 beside a page 0 that loads: only string 7 lies on both pages, its weight and action on the lenient one. -/
theorem offendingField_lenientOne {m n : Memory} (good : offendingField n = 0) (zero : SamePage 0 m n)
    (one : SamePage 1 m lenientStore) : offendingField m = 0 := by
  rw [offendingField_eq_zero_iff_passes] at good ⊢
  obtain ⟨station, strings⟩ := good
  refine ⟨by rwa [stationFieldChecks_congr fun a inside => zero a (by omega)], fun i => ?_⟩
  rcases Nat.lt_trichotomy i.val 6 with low | middle | high
  · exact stringPasses_congr (fun a _ _ => (zero a (by omega)).symm) (strings i)
  · obtain rfl : i = 6 := Fin.ext middle
    obtain ⟨flag, group⟩ := strings 6
    have weight : 500 ≤ recordWord m 64 ∧ recordWord m 64 ≤ 1500 := by
      rw [recordWord_congr (one 64 rfl) (one 65 rfl)]
      decide
    have action : recordByte m 66 = 0 := by
      rw [recordByte_congr (one 66 rfl)]
      decide
    have own : recordByte m 62 = recordByte n 62 ∧ recordByte m 63 = recordByte n 63 :=
      ⟨recordByte_congr (zero 62 rfl), recordByte_congr (zero 63 rfl)⟩
    refine ⟨own.1.trans_le flag, fun present => ⟨?_, ?_, ?_⟩⟩
    · exact own.2 ▸ (group (own.1.symm.trans present)).1
    · exact weight
    · exact action ▸ Nat.zero_le 1
  · exact stringPasses_congr (fun a _ _ => (one a (by omega)).symm) (lenientStore_passes i)

/-- The lenient page 0 beside a page 1 that loads: the lenient string 7 is not present. -/
theorem offendingField_lenientZero {m n : Memory} (good : offendingField n = 0) (zero : SamePage 0 m lenientStore)
    (one : SamePage 1 m n) : offendingField m = 0 := by
  rw [offendingField_eq_zero_iff_passes] at good ⊢
  obtain ⟨lenient, -⟩ := offendingField_eq_zero_iff_passes.1 offendingField_lenientStore
  refine ⟨by rwa [stationFieldChecks_congr fun a inside => zero a (by omega)], fun i => ?_⟩
  rcases Nat.lt_trichotomy i.val 6 with low | middle | high
  · exact stringPasses_congr (fun a _ _ => (zero a (by omega)).symm) (lenientStore_passes i)
  · obtain rfl : i = 6 := Fin.ext middle
    have absent : recordByte m 62 = 0 := by
      rw [recordByte_congr (zero 62 rfl)]
      decide
    exact ⟨absent.trans_le (by decide), fun present => absurd (absent.symm.trans present) (by decide)⟩
  · exact stringPasses_congr (fun a _ _ => (one a (by omega)).symm) (good.2 i)

/-- What the load reads beside a page: the page, and the lenient bytes of the other. -/
theorem samePage_lenient (m : Memory) {page other : Nat} (differ : page ≠ other) :
    let beside := Memory.programPage m other (lenientRecord.drop (64 * other))
    SamePage page beside m ∧ SamePage other beside lenientStore := by
  refine ⟨fun a own => ?_, fun a own => ?_⟩
  · rw [read_programPage_of_any, if_neg (by omega)]
  · rw [read_programPage_of_any, if_pos own, read_lenientStore, List.getD_eq_getElem?_getD, List.getD_eq_getElem?_getD,
      List.getElem?_take_of_lt (Nat.mod_lt a (by decide)), List.getElem?_drop, show 64 * other + a % 64 = a by omega]

theorem SamePage.trans {page : Nat} {m n k : Memory} (h : SamePage page m n) (h' : SamePage page n k) : SamePage page m k :=
  fun a own => (h a own).trans (h' a own)

theorem SamePage.symm {page : Nat} {m n : Memory} (h : SamePage page m n) : SamePage page n m := fun a own => (h a own).symm

/-- The check beside the lenient page decides for every other page. -/
theorem pageFails_of_recordPageBad {m : Memory} {page : Nat} (record : page = 0 ∨ page = 1) (bad : recordPageBad m page = true) :
    PageFails m page := by
  intro n same loads
  have lenient : offendingField (Memory.programPage m (1 - page) (lenientRecord.drop (64 * (1 - page)))) ≠ 0 := bne_iff_ne.1 bad
  refine lenient ?_
  obtain ⟨own, other⟩ := samePage_lenient m (page := page) (other := 1 - page) (by omega)
  have own := own.trans same.symm
  rcases record with rfl | rfl
  · exact offendingField_lenientOne loads own other
  · exact offendingField_lenientZero loads other own

/-- An erased page fails: without a marker on page 0, with string 8's present flag out of range on page 1. -/
theorem pageFails_erasePage (m : Memory) {page : Nat} (record : page = 0 ∨ page = 1) : PageFails (Memory.erasePage m page) page := by
  intro n same loads
  have erased : ∀ a, a / 64 = page → Memory.read n a = erasedByte := fun a own => by
    rw [same a own, read_erasePage, if_pos own]
  obtain ⟨station, strings⟩ := offendingField_eq_zero_iff_passes.1 loads
  rcases record with rfl | rfl
  · have marker : decide (recordWord n 0 = 0x3C12) = true := station _ (by simp [stationFieldChecks])
    rw [recordWord, erased 0 rfl, erased 1 rfl] at marker
    exact absurd marker (by decide)
  · obtain ⟨flag, -⟩ := strings 7
    have flag : recordByte n 67 ≤ 1 := flag
    rw [recordByte, erased 67 rfl] at flag
    exact absurd flag (by decide)

/-! ### The lockout page (R151) -/

theorem lockoutPageGood_congr {m n : Memory} (same : SamePage 2 m n) : lockoutPageGood m = lockoutPageGood n := by
  have byte : ∀ k, k < 8 → Memory.read m (128 + k) = Memory.read n (128 + k) := fun k inside => same _ (by omega)
  simp only [lockoutPageGood, byte, Nat.reduceLT]

theorem lockoutPageGood_erasePage (m : Memory) : lockoutPageGood (Memory.erasePage m 2) = false := by
  have marker : Memory.read (Memory.erasePage m 2) (128 + 0) ≠ 0x3C := by
    rw [read_erasePage, if_pos rfl]
    decide
  rw [lockoutPageGood, decide_eq_false marker]
  rfl

/-! ### Pages cut off -/

section
variable (cuts : Nat) (m : Memory)

theorem read_cutPage_of_other {page a : Nat} (other : a / 64 ≠ page) : Memory.read (cutPage cuts m page) a = Memory.read m a := by
  rw [cutPage]
  split
  · rw [freePage, read_programPage_of_any, if_neg other]
  · rw [read_erasePage, if_neg other]

theorem read_cutPages_of_other (pages : List Nat) {a : Nat} (other : a / 64 ∉ pages) :
    Memory.read (pages.foldl (cutPage cuts) m) a = Memory.read m a := by
  induction pages generalizing m with
  | nil => rfl
  | cons page pages ih =>
    rw [List.foldl_cons, ih _ fun later => other (List.mem_cons_of_mem _ later)]
    exact read_cutPage_of_other cuts m fun own => other (own ▸ List.mem_cons_self)

/-- A page 0 or 1 cut off fails the load's check, erased or partly programmed. -/
theorem pageFails_cutPage {page : Nat} (record : page = 0 ∨ page = 1) : PageFails (cutPage cuts m page) page := by
  rw [cutPage]
  split
  case isTrue bad =>
    rw [pageBad, if_neg (by omega)] at bad
    exact pageFails_of_recordPageBad record bad
  case isFalse => exact pageFails_erasePage m record

theorem lockoutPageGood_cutPage : lockoutPageGood (cutPage cuts m 2) = false := by
  rw [cutPage]
  split
  case isTrue bad => simpa [pageBad] using bad
  case isFalse => exact lockoutPageGood_erasePage m

variable {cuts m}

theorem PageFails.cutPage {page other : Nat} (fails : PageFails m page) (differ : page ≠ other) :
    PageFails (cutPage cuts m other) page :=
  fails.congr fun _ own => read_cutPage_of_other cuts m (own.trans_ne differ)

variable (cuts m)

/-- An erasure cut off leaves three bad pages. -/
theorem pages_cutOff_of_erase :
    let left := cutPage cuts (cutPage cuts (cutPage cuts m 0) 1) 2
    PageFails left 0 ∧ PageFails left 1 ∧ lockoutPageGood left = false := by
  refine ⟨?_, ?_, lockoutPageGood_cutPage _ _⟩
  · exact ((pageFails_cutPage cuts m (.inl rfl)).cutPage (by decide)).cutPage (by decide)
  · exact (pageFails_cutPage cuts _ (.inr rfl)).cutPage (by decide)

end

theorem store_cutOff_of_write {n : Nvs} {w : Write} (writing : n.write = some w) :
    (cutOff n).store = (w.kind.pages w.page).foldl (cutPage n.cuts) n.store := by
  rw [cutOff, writing]

/-! ### The reset that cuts the write off -/

section
variable {kind : ResetKind} {level : Bool} {log : Flg} {s : State}

/-- Over a record that fails the load leaves the store as the cut left it. -/
theorem nvs_resetPart_of_fails (bad : offendingField (cutOff s.nvs).store ≠ 0) :
    let t := resetPart kind level log s
    t.mode = .uncommissioned ∧ t.nvs.write = none ∧ t.nvs.store = (cutOff s.nvs).store := by
  refine ⟨?_, ?_, ?_⟩
  · rw [mode_resetPart, if_neg bad]
  · rw [nvs_resetPart_of_offending bad]
    simp [resetStore]
  · rw [nvs_resetPart_of_offending bad]
    simp [resetStore]

/-- A lost lockout page stays lost through the load, which leaves the other pages. -/
theorem store_resetPart_of_lost (lost : lockoutPageGood (cutOff s.nvs).store = false) :
    let t := resetPart kind level log s
    (∀ a, a / 64 ≠ 2 → Memory.read t.nvs.store a = Memory.read (cutOff s.nvs).store a) ∧ lockoutPageGood t.nvs.store = false := by
  obtain ⟨store, write, nvs, left⟩ := nvs_resetPart_kept (kind := kind) (level := level) (log := log) (s := s)
  dsimp only
  rw [nvs]
  rcases left with rfl | rfl
  · exact ⟨fun _ _ => rfl, lost⟩
  · exact ⟨fun a other => by rw [read_erasePage, if_neg other], lockoutPageGood_erasePage _⟩

/-- A station that loads over a lost lockout page locks out every present string. -/
theorem lockout_resetPart_of_lost (good : offendingField (cutOff s.nvs).store = 0)
    (lost : lockoutPageGood (cutOff s.nvs).store = false) :
    let t := resetPart kind level log s
    t.mode = .run ∧ t.hld.pageLost = true ∧ ∀ i, t.present i = true → (t.hold i).lockout = true := by
  refine ⟨?_, ?_, fun i here => ?_⟩
  · rw [mode_resetPart, if_pos good]
  · rw [pageLost_resetPart_of_good good, lost]
    rfl
  · rw [present_resetPart_of_good good] at here
    obtain ⟨-, -, lockout, -⟩ := loadedHold_fields (cutOff s.nvs).store level i
    rw [hold_resetPart_of_good good, if_pos here, lockout]
    exact .inl (by simp [lost])

end

end Sys2Proof.Machine

namespace Sys2Proof.Proofs

open Sys2Proof Sys2Proof.Machine

/-- Settles O9: each page of a write cut off is bad by itself, and the load that follows reads it so. -/
theorem writesCutOffByAResetLeaveBadPages : Obligations.WritesCutOffByAResetLeaveBadPages := by
  intro start level c w reset
  dsimp only
  intro writing
  obtain ⟨kind, resets⟩ : ∃ kind, ResetsPart start level c kind := exists_kind (reset.imp_right .inl)
  obtain ⟨log, s, same, run⟩ := exec_of_resetsPart resets
  rw [← same] at writing ⊢
  have cut := store_cutOff_of_write writing
  obtain ⟨store, write, nvs, -⟩ := nvs_resetPart_kept (kind := kind) (level := level) (log := log) (s := s)
  refine ⟨_, run, by rw [nvs]; simp [resetStore], fun program record => ?_, fun erase => ?_, fun lockout => ?_⟩
  · rw [program] at cut
    have fails : PageFails (cutOff s.nvs).store w.page := by
      rw [cut]
      exact pageFails_cutPage _ _ record
    obtain ⟨mode, idle, store⟩ := nvs_resetPart_of_fails (kind := kind) (level := level) (log := log) fails.offending
    rw [store]
    refine ⟨mode, idle, fun a other => ?_, fails⟩
    rw [cut]
    exact read_cutPages_of_other _ _ [w.page] other
  · rw [erase] at cut
    obtain ⟨zero, one, two⟩ := pages_cutOff_of_erase s.nvs.cuts s.nvs.store
    rw [WriteKind.pages] at cut
    have outside : ∀ a, a / 64 ∉ [0, 1, 2] → Memory.read (cutOff s.nvs).store a = Memory.read s.nvs.store a := fun a other => by
      rw [cut]
      exact read_cutPages_of_other _ _ _ other
    rw [List.foldl_cons, List.foldl_cons, List.foldl_cons, List.foldl_nil] at cut
    rw [← cut] at zero one two
    obtain ⟨mode, idle, store⟩ := nvs_resetPart_of_fails (kind := kind) (level := level) (log := log) zero.offending
    rw [store]
    exact ⟨mode, idle, outside, zero, one, two⟩
  · have pages : w.kind.pages w.page = [2] := by rcases lockout with kind | kind <;> rw [kind] <;> rfl
    rw [pages, List.foldl_cons, List.foldl_nil] at cut
    have lost : lockoutPageGood (cutOff s.nvs).store = false := by
      rw [cut]
      exact lockoutPageGood_cutPage _ _
    have outside : ∀ a, a / 64 ≠ 2 → Memory.read (cutOff s.nvs).store a = Memory.read s.nvs.store a := fun a other => by
      rw [cut]
      exact read_cutPage_of_other _ _ other
    obtain ⟨others, still⟩ := store_resetPart_of_lost (kind := kind) (level := level) (log := log) lost
    refine ⟨fun a other => ?_, still, fun good => ?_⟩
    · have other : a / 64 ≠ 2 := by simpa using other
      exact (others a other).trans (outside a other)
    · have good : offendingField (cutOff s.nvs).store = 0 :=
        (offendingField_congr fun a inside => outside a (by omega)).trans good
      exact lockout_resetPart_of_lost good lost

end Sys2Proof.Proofs
end

section
/-! Proofs: a DIGEST delivered to the peer table (R47 to R50). -/

namespace Sys2Proof.Machine

/-! ### The check of a digest body (R47) -/

/-- The median that the five bytes of a group entry state. -/
def entryValue (b : Nat → Byte) : Int := signedWord16 (b 3) (b 4)

/-- Five bytes make a group entry. -/
def EntrySound (b : Nat → Byte) : Prop :=
  (b 0).toNat ≤ 7 ∧ (b 1).toNat ≤ 12 ∧ ((b 2).getLsbD 1 = true ↔ 1 ≤ (b 1).toNat) ∧
    ((b 2).getLsbD 1 = true → -4000 ≤ entryValue b ∧ entryValue b ≤ 4000)

/-- The group entry that five bytes make. -/
def entryOf (b : Nat → Byte) : GroupEntry :=
  ⟨(b 0).toNat, (b 1).toNat, if (b 2).getLsbD 1 then some (entryValue b) else none, (b 2).getLsbD 0⟩

/-- The bytes of the `k`-th group entry of a list. -/
def entryBytes (l : List Byte) (k j : Nat) : Byte := l.getD (5 * k + j) 0

theorem entryBytes_succ (a b c d e : Byte) (rest : List Byte) (k : Nat) :
    entryBytes (a :: b :: c :: d :: e :: rest) (k + 1) = entryBytes rest k := by
  funext j
  rw [entryBytes, entryBytes, show 5 * (k + 1) + j = 5 * k + j + 1 + 1 + 1 + 1 + 1 by omega]
  rfl

theorem parseGroups_cons {a b c d e : Byte} {rest : List Byte} {gs : List GroupEntry} :
    parseGroups (a :: b :: c :: d :: e :: rest) = some gs ↔
      EntrySound (entryBytes (a :: b :: c :: d :: e :: rest) 0) ∧
        ∃ gs', parseGroups rest = some gs' ∧ gs = entryOf (entryBytes (a :: b :: c :: d :: e :: rest) 0) :: gs' := by
  rw [parseGroups]
  split
  case isTrue sound =>
    cases parseGroups rest with
    | none => simp
    | some gs' =>
      rw [Option.some.injEq]
      exact ⟨fun same => ⟨sound, gs', rfl, same.symm⟩, by rintro ⟨-, _, ⟨⟩, rfl⟩; rfl⟩
  case isFalse unsound => exact ⟨by rintro ⟨⟩, fun parsed => absurd parsed.1 unsound⟩

/-- Of a list of whole group entries, each is read by itself. -/
theorem parseGroups_eq_some_iff {n : Nat} {l : List Byte} (length : l.length = 5 * n) {gs : List GroupEntry} :
    parseGroups l = some gs ↔
      (∀ k, k < n → EntrySound (entryBytes l k)) ∧ gs = (List.range n).map fun k => entryOf (entryBytes l k) := by
  induction n generalizing l gs with
  | zero =>
    obtain rfl : l = [] := List.length_eq_zero_iff.1 length
    simp [parseGroups, eq_comm]
  | succ n ih =>
    obtain ⟨a, b, c, d, e, rest, rfl⟩ : ∃ a b c d e rest, l = a :: b :: c :: d :: e :: rest := by
      match l, length with
      | a :: b :: c :: d :: e :: rest, _ => exact ⟨a, b, c, d, e, rest, rfl⟩
    have shorter : rest.length = 5 * n := by
      simp only [List.length_cons] at length
      omega
    rw [parseGroups_cons, List.range_succ_eq_map, List.map_cons, List.map_map]
    simp only [ih shorter, Function.comp_def, Nat.forall_lt_succ_left', Nat.succ_eq_add_one, entryBytes_succ]
    constructor
    · rintro ⟨sound, _, ⟨later, rfl⟩, rfl⟩
      exact ⟨⟨sound, later⟩, rfl⟩
    · rintro ⟨⟨sound, later⟩, rfl⟩
      exact ⟨sound, _, ⟨later, rfl⟩, rfl⟩

theorem groupsAscend_iff {gs : List GroupEntry} : groupsAscend gs = true ↔ gs.IsChain fun g h => g.group < h.group := by
  induction gs with
  | nil => simp [groupsAscend]
  | cons g gs ih =>
    cases gs with
    | nil => simp [groupsAscend]
    | cons h gs => rw [groupsAscend, Bool.and_eq_true, ih, decide_eq_true_eq, List.isChain_cons_cons]

theorem groupsAscend_map_range {n : Nat} {f : Nat → GroupEntry} :
    groupsAscend ((List.range n).map f) = true ↔ ∀ k, k + 1 < n → (f k).group < (f (k + 1)).group := by
  simp [groupsAscend_iff, List.isChain_iff_getElem]

theorem parseDigest_eq_some_iff {feeder : Nat} {body : List Byte} {gs : List GroupEntry} :
    parseDigest feeder body = some gs ↔
      (3 ≤ body.length ∧ (body.getD 2 0).toNat ≤ 8 ∧ body.length = 3 + 5 * (body.getD 2 0).toNat ∧ feeder ≤ 15) ∧
        parseGroups (body.drop 3) = some gs ∧ groupsAscend gs = true := by
  rw [parseDigest]
  split_ifs with shape
  · cases parseGroups (body.drop 3) with
    | none => simp
    | some found =>
      dsimp only
      by_cases order : groupsAscend found = true
      · rw [if_pos order]
        exact ⟨by rintro ⟨⟩; exact ⟨shape, rfl, order⟩, fun parsed => parsed.2.1⟩
      · rw [if_neg order]
        exact ⟨by rintro ⟨⟩, by rintro ⟨-, ⟨⟩, good⟩; exact absurd good order⟩
  · exact ⟨by rintro ⟨⟩, fun parsed => absurd parsed.1 shape⟩

/-- The bytes of the `k`-th group entry of a digest body. -/
def digestEntry (body : List Byte) (k j : Nat) : Byte := body.getD (3 + 5 * k + j) 0

theorem entryBytes_drop (body : List Byte) : entryBytes (body.drop 3) = digestEntry body := by
  funext k j
  rw [entryBytes, digestEntry, List.getD_eq_getElem?_getD, List.getD_eq_getElem?_getD, List.getElem?_drop, Nat.add_assoc]

/-- R47, byte by byte. -/
theorem parseDigest_iff_bytes {feeder : Nat} {body : List Byte} {gs : List GroupEntry} :
    let n := (body.getD 2 0).toNat
    parseDigest feeder body = some gs ↔
      (feeder ≤ 15 ∧ 3 ≤ body.length ∧ n ≤ 8 ∧ body.length = 3 + 5 * n ∧ (∀ k, k < n → EntrySound (digestEntry body k)) ∧
        ∀ k, k + 1 < n → (digestEntry body k 0).toNat < (digestEntry body (k + 1) 0).toNat) ∧
      gs = (List.range n).map fun k => entryOf (digestEntry body k) := by
  intro n
  rw [parseDigest_eq_some_iff]
  constructor
  · rintro ⟨⟨long, few, length, feeder⟩, parsed, order⟩
    obtain ⟨sound, rfl⟩ := (parseGroups_eq_some_iff (n := n) (by rw [List.length_drop]; omega)).1 parsed
    rw [groupsAscend_map_range] at order
    rw [entryBytes_drop] at sound order ⊢
    exact ⟨⟨feeder, long, few, length, sound, order⟩, rfl⟩
  · rintro ⟨⟨feeder, long, few, length, sound, order⟩, rfl⟩
    refine ⟨⟨long, few, length, feeder⟩, (parseGroups_eq_some_iff (n := n) (by rw [List.length_drop]; omega)).2 ?_, ?_⟩
    · rw [entryBytes_drop]
      exact ⟨sound, rfl⟩
    · exact groupsAscend_map_range.2 order

/-! ### The entry heard longest ago (R50) -/

/-- Among entries in ascending station number the one heard longest ago, the lowest station among equals, is found. -/
theorem oldestHeard_of_longest {now : Ms} {l : List PeerEntry} {q : PeerEntry}
    (order : (l.map PeerEntry.station).Pairwise (· < ·)) (mem : q ∈ l)
    (longest : ∀ e ∈ l, since now e.lastHeard < since now q.lastHeard ∨ (e.lastHeard = q.lastHeard ∧ q.station ≤ e.station)) :
    oldestHeard now l = some q := by
  induction l with
  | nil => cases mem
  | cons e l ih =>
    rw [List.map_cons, List.pairwise_cons] at order
    obtain ⟨first, order⟩ := order
    rw [oldestHeard]
    rcases List.mem_cons.1 mem with rfl | later
    · cases tail : oldestHeard now l with
      | none => rfl
      | some r =>
        have heard : since now r.lastHeard ≤ since now q.lastHeard := by
          rcases longest r (List.mem_cons_of_mem _ (mem_of_oldestHeard tail)) with less | ⟨same, -⟩
          · exact less.le
          · rw [same]
        exact if_neg (by omega)
    · rw [ih order later fun r mem => longest r (List.mem_cons_of_mem _ mem)]
      have before : e.station < q.station := first _ (List.mem_map_of_mem later)
      rcases longest e List.mem_cons_self with less | ⟨-, lower⟩
      · exact if_pos less
      · omega

/-! ### What the peer table makes of an entry (R48 to R50) -/

section
variable {c : Settings} {e q : PeerEntry} {now : Ms} {p : Ptb}

theorem enroll_of_known (known : ∃ q ∈ p.entries, q.station = e.station) :
    p.enroll c e now = { p with entries := p.entries.map fun q => if q.station = e.station then e else q } := by
  unfold Ptb.enroll
  exact if_pos (knows_iff.2 known)

theorem enroll_of_room (unknown : ¬ ∃ q ∈ p.entries, q.station = e.station) (room : p.entries.length < 24) :
    p.enroll c e now = { p with entries := insertPeer e p.entries } := by
  unfold Ptb.enroll
  rw [if_neg (knows_iff.not.2 unknown), if_pos room]

theorem enroll_of_full (unknown : ¬ ∃ q ∈ p.entries, q.station = e.station) (full : 24 ≤ p.entries.length)
    (oldest : oldestHeard now p.entries = some q) :
    p.enroll c e now = if q.fresh c now then p.raiseOverflow
      else { p with entries := insertPeer e (p.entries.filter fun r => decide (r.station ≠ q.station)) } := by
  unfold Ptb.enroll
  rw [if_neg (knows_iff.not.2 unknown), if_neg (by omega), oldest]

end

theorem takeDigest_of_none {c : Settings} {t : Telegram} {s : State} (bad : parseDigest t.feeder t.body = none) :
    takeDigest c t s = s := by
  rw [takeDigest, bad]

theorem takeDigest_of_some {c : Settings} {t : Telegram} {s : State} {gs : List GroupEntry}
    (parsed : parseDigest t.feeder t.body = some gs) :
    takeDigest c t s = s.withPtb (s.ptb.enroll c (peerOf t.source t.feeder s.nowMs gs) s.nowMs) := by
  rw [takeDigest, parsed]

end Sys2Proof.Machine

namespace Sys2Proof.Proofs

open Sys2Proof Sys2Proof.Machine

/-- Settles O40: the parser reads each five bytes by themselves; the entry they make is placed as the three cases of the table say. -/
theorem digestsUpdateAdmitOrOverflow : Obligations.DigestsUpdateAdmitOrOverflow := by
  refine ⟨fun feeder body => ⟨⟨?_, fun sound => ?_⟩, fun gs parsed => ?_⟩, fun c t s => ⟨takeDigest_of_none, fun gs parsed => ?_⟩⟩
  · rintro ⟨gs, parsed⟩
    exact (parseDigest_iff_bytes.1 parsed).1
  · exact ⟨_, parseDigest_iff_bytes.2 ⟨sound, rfl⟩⟩
  · obtain ⟨-, rfl⟩ := parseDigest_iff_bytes.1 parsed
    refine ⟨by simp, fun k inside => ?_⟩
    rw [List.getElem?_map, List.getElem?_range inside]
    rfl
  · dsimp only
    rw [takeDigest_of_some parsed, State.withPtb_ptb]
    refine ⟨rfl, fun known => enroll_of_known known, fun unknown room => ?_, fun unknown full order q mem longest => ?_⟩
    · rw [enroll_of_room unknown room]
      exact ⟨rfl, station_insertPeer _ _⟩
    · rw [enroll_of_full unknown full (oldestHeard_of_longest (ascending_iff.1 order) mem longest)]
      refine ⟨fun fresh => ?_, fun stale => ?_⟩
      · rw [if_pos (fresh_iff.2 fresh)]
        rfl
      · rw [if_neg (fresh_iff.not.2 stale)]
        exact ⟨rfl, station_insertPeer _ _⟩

end Sys2Proof.Proofs
end
